-- ==== Sys2Proof/Word.lean ====
section
/-! DEFINITION. The words of BRDC-SEQ and the families indexed by a peripheral instance number
(00_scope.md R8, R10, R11; 10_state.md R20). -/

namespace Sys2Proof

/-- One byte of a transfer buffer. -/
abbrev Byte := BitVec 8

/-- A 32-bit register: `CLK_W = BAUD_W = REG_W = 32` (R8). -/
abbrev Word := BitVec 32

/-- The command word of `CMD`, 16 bits (R22, R74). -/
abbrev CmdWord := BitVec 16

/-- A peripheral instance number: "a small closed enumeration {Instance0..Instance5}" (R20, R76). -/
abbrev Inst := Fin 6

/-- One value for each of the six instances. -/
abbrev PerInst (α : Type) := Vector α 6

/-- The entry of instance `i`. -/
def PerInst.get {α : Type} (v : PerInst α) (i : Inst) : α := v[i.val]

/-- The family with instance `i`'s entry replaced and no other: two instance numbers never share
state (R42). -/
def PerInst.set {α : Type} (v : PerInst α) (i : Inst) (a : α) : PerInst α :=
  Vector.set v i.val a i.isLt

end Sys2Proof
end

