-- ==== Sys2Proof/Config.lean ====
section
/-! DEFINITION. The parameters of BRDC-SEQ (00_scope.md R8) and the values the spec leaves open
(93_implementation_defined.md). A constant with no body stands for any value: nothing can be proved
of which one it is. -/

namespace Sys2Proof

/-- The two peripheral buses, the argument of the clock lookup (R58). -/
inductive Bus where
  | busA
  | busB
  deriving DecidableEq, Repr, Inhabited

/-- `MANT_W`, the width of the mantissa field, at the spec's default (R8, D3; log entry 4).
PRESUMED (the family's), unsafe. -/
def Config.mantW : Nat := 12

/-- `N_LINES`, the number of interrupt lines of the environment (R8, R161; log entry 4). -/
def Config.nLines : Nat := 96

/-- `PRIO_BITS`, the implemented priority bits of a line (R8, R162; log entry 4).
PRESUMED (the family's), unsafe. -/
def Config.prioBits : Nat := 4

/-- `BUS`, the bus membership table, OPEN (R8, R52; log entry 2). -/
opaque Config.bus : Inst → Bus

/-- The clock lookup's answer to query number `n` where the platform has fixed none: an oracle free to
answer differently each time (R58, D17; log entry 1). -/
opaque Config.clockLookup (bus : Bus) (n : Nat) : Option Word

/-- `USART_RESET.OTHER`, "unspecified; a model must not assume a value" (R39, R192; log entry 3). -/
opaque Config.usartResetOther : Nat

/-- A buffer byte behind the cursor of an aborted receive: unspecified (R171, U7; log entry 17). -/
opaque Config.abortedByte (n index : Nat) : Byte

/-- Which of several hardware error flags set in one event is reported (U6; log entry 17). -/
opaque Config.errorPick (n : Nat) : Nat

end Sys2Proof
end

