-- ==== Sys2Proof/Syntax.lean ====
section
/-! DEFINITION. The commands of BRDC-SEQ: the one inductive `Instr` with a constructor per row of
spec/opcode_table.json, the value sets of a configuration (00_scope.md R9), and the seven raw fields of
a command word (30_encoding.md R74). -/

namespace Sys2Proof

/-- Word length, field `WL` (R74). -/
inductive WordLen where
  | wl8
  | wl9
  deriving DecidableEq, Repr, Inhabited

/-- Mode, field `MODE` (R74); the value 3 names none. -/
inductive Mode where
  | txOnly
  | rxOnly
  | txRx
  deriving DecidableEq, Repr, Inhabited

/-- Parity control, field `PARITY` (R74); the value 3 names none. -/
inductive Parity where
  | none
  | even
  | odd
  deriving DecidableEq, Repr, Inhabited

/-- Hardware flow control, field `FLOW` (R74). -/
inductive FlowCtl where
  | none
  | rts
  | cts
  | both
  deriving DecidableEq, Repr, Inhabited

/-- Stop bits, field `STOP` (R74): 1, 0.5, 2, 1.5. -/
inductive StopBits where
  | one
  | half
  | two
  | oneAndHalf
  deriving DecidableEq, Repr, Inhabited

/-- The source's value object (R9), which a Handle of the environment binds (R165). In a command it is
spread over the CONFIGURE word and `OP_BAUD` (R77). -/
structure Configuration where
  wl : WordLen
  mode : Mode
  parity : Parity
  flow : FlowCtl
  stop : StopBits
  baud : Word
  deriving DecidableEq, Repr

/-- The three commands (R75, R79, R81). -/
inductive Instr where
  /-- COMPUTE: the Divisor Calculator alone (R96). -/
  | compute
  /-- CONFIGURE of one instance (R110). -/
  | configure (inst : Inst) (wl : WordLen) (mode : Mode) (parity : Parity) (flow : FlowCtl) (stop : StopBits)
  /-- DECONFIGURE of one instance (R140). -/
  | deconfigure (inst : Inst)
  deriving DecidableEq, Repr

/-- A command word cut into its fields, not yet judged (R74). -/
structure Fields where
  rsvd : BitVec 2
  stop : BitVec 2
  flow : BitVec 2
  parity : BitVec 2
  mode : BitVec 2
  wl : BitVec 1
  inst : BitVec 3
  op : BitVec 2
  deriving DecidableEq, Repr

end Sys2Proof
end

