-- ==== Sys2Proof/Machine/State.lean ====
section
/-! DEFINITION. The state of BRDC-SEQ (10_state.md R20 to R43), of its environment (60_exceptions.md
part 3) and of the agents' next moves, all plain data; the reasons a step can stop; the state after
reset (R39). -/

namespace Sys2Proof.Machine

/-! ## The block's own registers -/

/-- `SEQ_STATE`, the step register: the sixteen values of R26, in the order of their numbers. -/
inductive SeqState where
  | idle
  | c1GateOn
  | c2Disable
  | c3aWl
  | c3bMode
  | c3cParity
  | c3dFlow
  | c3eStop
  | c4aClock
  | c4bDivide
  | c4cBaudreg
  | c5Enable
  | x1RstAssert
  | x2RstRelease
  | x3GateOff
  | k1Compute
  deriving DecidableEq, Repr, Inhabited

/-- `STATUS` (R25): BUSY in bit 0, DONE in bit 1, ERR in bits 4 to 2. -/
structure Status where
  busy : Bool
  done : Bool
  err : BitVec 3
  deriving DecidableEq, Repr

/-! ## One peripheral instance -/

/-- `U[i]`, the configuration state of an instance (R30). `other` stands for every remaining bit of the
instance's registers, a bit string of unstated width read as a number (R35; log entry 13). -/
structure Usart where
  en : Bool
  wl : Bool
  txen : Bool
  rxen : Bool
  paren : Bool
  parsel : Bool
  rtsen : Bool
  ctsen : Bool
  stop : BitVec 2
  baudreg : Word
  other : Nat
  deriving DecidableEq, Repr

/-- A field of `U[i]` that is written as one: the fields of R54, `BAUDREG` (R55) and `OTHER`. -/
inductive FieldName where
  | en
  | wl
  | mode
  | parity
  | flow
  | stop
  | baudreg
  | other
  deriving DecidableEq, Repr

/-- A field of `U[i]` with the value to be written to it. -/
inductive FieldVal where
  | en (v : Bool)
  | wl (v : Bool)
  | mode (txen rxen : Bool)
  | parity (paren parsel : Bool)
  | flow (rtsen ctsen : Bool)
  | stop (v : BitVec 2)
  | baudreg (v : Word)
  | other (v : Nat)
  deriving DecidableEq, Repr

/-- `USART_RESET` (R39): every named field 0 (the spec's default; log entry 3), `OTHER` unspecified. -/
def usartReset : Usart where
  en := false
  wl := false
  txen := false
  rxen := false
  paren := false
  parsel := false
  rtsen := false
  ctsen := false
  stop := 0
  baudreg := 0
  other := Config.usartResetOther

/-! ## The environment (60_exceptions.md part 3) -/

/-- The status of a transfer: the five states of R166 (90_conflicts.md C4). -/
inductive XferStatus where
  | idle
  | sending
  | receiving
  | complete
  | error
  deriving DecidableEq, Repr

/-- A TransferState: a buffer with its length, a progress cursor and a status (R165). -/
structure Transfer where
  status : XferStatus
  buf : List Byte
  cursor : Nat
  deriving DecidableEq, Repr

/-- A Handle "binds one PeripheralInstance to one Configuration and owns the current TransferState" (R165). -/
structure Handle where
  cfg : Configuration
  xfer : Transfer
  deriving DecidableEq, Repr

/-- A blocking `send` or `receive` and the unsuccessful polls it may still make, if bounded (R169). -/
structure Blocking where
  xfer : Transfer
  bound : Option Nat
  deriving DecidableEq, Repr

/-- What the Event Notifier is invoked with (R170). -/
inductive EventKind where
  | completion
  | overrunError
  | framingError
  | parityError
  deriving DecidableEq, Repr

/-- The source's taxonomy of transfer errors (R176). -/
inductive TransferError where
  | busy
  | overrunError
  | framingError
  | parityError
  | timeout
  deriving DecidableEq, Repr

/-- The hardware error flags an interrupt event shows (R164, R168). -/
structure ErrorFlags where
  overrun : Bool
  framing : Bool
  parity : Bool
  deriving DecidableEq, Repr

/-- Which way a transfer goes (R166). -/
inductive Direction where
  | send
  | receive
  deriving DecidableEq, Repr

/-- The environment's state: the Interrupt Line Controller's words (R161, R162), the Handles (R165), the
armed notifications (R164), the blocking calls (R169), the data register writes (R167), the notifier's
calls (R170), the last call's answer and the counter of free choices. -/
structure Env where
  ien : Vector Word 3
  ipr : Vector Word 24
  handles : PerInst (Option Handle)
  txArmed : PerInst Bool
  rxArmed : PerInst Bool
  blocking : PerInst (Option Blocking)
  sent : PerInst (List Byte)
  notified : List (Inst × EventKind)
  answer : Option TransferError
  picks : Nat
  deriving DecidableEq, Repr

/-! ## The agents' moves (R21, R62) -/

/-- What the environment and the software around the block may do. -/
inductive EnvAction where
  /-- Another writer of `U[i]` (R21). -/
  | writeField (i : Inst) (v : FieldVal)
  /-- Another writer of `GATE[i]` (R21). -/
  | writeGate (i : Inst) (on : Bool)
  /-- Another writer of `RST[i]` (R21). -/
  | writeReset (i : Inst) (asserted : Bool)
  /-- The clock tree: from now on the lookup of `bus` answers `answer`, or anything if `none` (R58). -/
  | setClock (bus : Bus) (answer : Option (Option Word))
  /-- `set_enabled(line, enabled)` (R161). -/
  | setEnabled (line : Nat) (enabled : Bool)
  /-- `set_priority(line, priority)` (R162). -/
  | setPriority (line priority : Nat)
  /-- Bind a Handle: the software act of `init` (R84, R165). -/
  | bindHandle (i : Inst) (cfg : Configuration)
  /-- Destroy a Handle: the software act of `deinit` (R84, R165). -/
  | destroyHandle (i : Inst)
  /-- `start_send` or `start_receive` (R166). -/
  | start (i : Inst) (dir : Direction) (buf : List Byte)
  /-- The caller resets a finished transfer to Idle (R166). -/
  | clear (i : Inst)
  /-- One interrupt event of the instance, with its error flags and its received byte (R164, R167, R168). -/
  | irq (i : Inst) (flags : ErrorFlags) (rx : Byte)
  /-- Begin a blocking `send` or `receive`, with a bound or none (R169). -/
  | block (i : Inst) (dir : Direction) (buf : List Byte) (bound : Option Nat)
  /-- One poll of a blocking call: whether the flag is set, and the received byte (R169). -/
  | poll (i : Inst) (ready : Bool) (rx : Byte)
  deriving DecidableEq, Repr

/-- One move of one agent. -/
inductive Event where
  /-- The host writes a register of the block by its byte offset (R51). -/
  | hostWrite (offset : Nat) (v : Word)
  /-- The host reads a register of the block (R51). -/
  | hostRead (offset : Nat)
  /-- SEQ takes one step (R26). -/
  | seq
  /-- The environment acts (R21). -/
  | env (a : EnvAction)
  /-- The power-on reset (R190). -/
  | powerOn
  deriving DecidableEq, Repr

/-! ## The whole state -/

/-- The state of R20, then the model's own: the clock answers and the number of queries made, the
environment, and the agents' next moves (SEQ moves when none is listed; log entries 1, 5, 6). -/
structure State where
  cmd : CmdWord
  opClk : Word
  opBaud : Word
  resMant : BitVec 12
  resFrac : BitVec 4
  status : Status
  seqState : SeqState
  u : PerInst Usart
  gate : PerInst Bool
  rst : PerInst Bool
  clkA : Option (Option Word)
  clkB : Option (Option Word)
  queries : Nat
  env : Env
  agenda : List Event
  deriving DecidableEq, Repr

/-- Why a run is not a good run: the spec defines no result (R156). Safe: the model stops where the
hardware would go on in a way the spec does not state. -/
inductive Fault where
  /-- Raised by a meaning asked to run a step of another command's row of R26. No reachable state does
  (R26, R41; log entry 12). Safe. -/
  | foreignStep
  /-- Raised by SEQ's turn when a command is in progress and `CMD` holds no legal word. No reachable
  state does (R27, R79; log entry 12). Safe. -/
  | illegalInProgress
  /-- Raised by an environment move on an instance a command is working on that writes its fields, gate or reset
  line or begins or carries on a transfer: "a model treats the breaking step as a fault of the run" (R198,
  R158; log entry 10). Safe. -/
  | exclusivity (i : Inst)
  /-- Raised by the host's write that issues a CONFIGURE or DECONFIGURE of an instance with a transfer in
  progress (R111, R198, U11). Safe. -/
  | transferActive (i : Inst)
  /-- Raised by the Interrupt Line Controller on a line that is not there (R163). Safe. -/
  | lineOutOfRange (line : Nat)
  /-- Raised by the Interrupt Line Controller on a priority that does not fit (R163). Safe. -/
  | priorityTooWide (priority : Nat)
  /-- Raised by destroying a Handle whose transfer is in progress, "a known design hazard" (R169, U10). Safe. -/
  | abandonedTransfer (i : Inst)
  deriving DecidableEq, Repr

/-- Why the model gives no meaning. -/
inductive Refusal where
  /-- An instruction that has no meaning yet, by its mnemonic. Safe. -/
  | notModelled (mnemonic : String)
  /-- Raised by an environment write to an instance whose clock gate is off, "A model should give such a
  write no meaning (refuse)" (91_not_in_source.md N9, U15), and by a transfer's access to the data register or
  a flag of one (log entry 11). Safe. -/
  | unclockedInstance (i : Inst)
  /-- Raised by a call on an instance that has no Handle, to which R165 and R166 give no effect. Safe. -/
  | noHandle (i : Inst)
  /-- Raised by binding a second Handle, or a call while a transfer the call cannot share is in progress,
  to which R165, R166 and R169 give no effect. Safe. -/
  | handleInUse (i : Inst)
  /-- Raised by a transfer on an instance with 9-bit words (91_not_in_source.md N10, U23). Safe. -/
  | nineBitTransfer (i : Inst)
  /-- Raised by a hardware error flag or a poll when there is no transfer it could concern (R168, R169). Safe. -/
  | noTransfer (i : Inst)
  deriving DecidableEq, Repr

/-- The outcome of a move. -/
abbrev Outcome := Host.Outcome State Fault Refusal

/-- The environment right after reset (log entry 5). -/
def Env.reset : Env where
  ien := Vector.replicate 3 0
  ipr := Vector.replicate 24 0
  handles := Vector.replicate 6 none
  txArmed := Vector.replicate 6 false
  rxArmed := Vector.replicate 6 false
  blocking := Vector.replicate 6 none
  sent := Vector.replicate 6 []
  notified := []
  answer := none
  picks := 0

/-- The state right after reset (R39, R40, R190): idle, every register of the block 0, every gate off,
every reset line released, every instance in `USART_RESET`; nobody has moved yet. -/
def State.reset : State where
  cmd := 0
  opClk := 0
  opBaud := 0
  resMant := 0
  resFrac := 0
  status := ⟨false, false, 0⟩
  seqState := .idle
  u := Vector.replicate 6 usartReset
  gate := Vector.replicate 6 false
  rst := Vector.replicate 6 false
  clkA := none
  clkB := none
  queries := 0
  env := Env.reset
  agenda := []

end Sys2Proof.Machine
end

