-- ==== Sys2Proof/Machine/Flags.lean ====
section
/-! DEFINITION. The numbers of the error codes, of `STATUS` and of `SEQ_STATE`, and the three ways the
flags are written: acceptance, end, refusal (10_state.md R25, R26; 30_encoding.md R71, R72;
60_exceptions.md R150). -/

namespace Sys2Proof.Machine

/-- The outcomes a command can end with (R150). -/
inductive ErrCode where
  | none
  | invalidBaudRate
  | clockUnavailable
  | baudOutOfRange
  | illegalCommand
  deriving DecidableEq, Repr

/-- The number of an error code in `STATUS.ERR` (R150). -/
def ErrCode.code : ErrCode → BitVec 3
  | .none => 0
  | .invalidBaudRate => 1
  | .clockUnavailable => 2
  | .baudOutOfRange => 3
  | .illegalCommand => 4

/-- `STATUS` as the host reads it: `ERR << 2 | DONE << 1 | BUSY` (R25). -/
def Status.word (s : Status) : BitVec 5 := s.err ++ BitVec.ofBool s.done ++ BitVec.ofBool s.busy

/-- `STATUS` after the acceptance of a legal command (R71). -/
def Status.accepted : Status := ⟨true, false, 0⟩

/-- `STATUS` after the last step of a command (R72) and after a refusal (R71). -/
def Status.finished (e : ErrCode) : Status := ⟨false, true, e.code⟩

/-- The number of a value of `SEQ_STATE` (R26). -/
def SeqState.code : SeqState → BitVec 4
  | .idle => 0
  | .c1GateOn => 1
  | .c2Disable => 2
  | .c3aWl => 3
  | .c3bMode => 4
  | .c3cParity => 5
  | .c3dFlow => 6
  | .c3eStop => 7
  | .c4aClock => 8
  | .c4bDivide => 9
  | .c4cBaudreg => 10
  | .c5Enable => 11
  | .x1RstAssert => 12
  | .x2RstRelease => 13
  | .x3GateOff => 14
  | .k1Compute => 15

end Sys2Proof.Machine
end

