-- ==== Sys2Proof/WellFormed.lean ====
section
/-! DEFINITION. Which command words are legal (30_encoding.md R79), said twice: as checks on the cut
fields, and as the spec's table of masks and matches. Every term of `Instr` is well formed by its type
(an instance number is below 6, the reserved values of `MODE` and `PARITY` have no constructor); the
checks are on what a word can spell. -/

namespace Sys2Proof

/-- Bits 15 and 14 are 0 (R74). -/
def Fields.reservedZero (f : Fields) : Bool := f.rsvd == 0

/-- `INST` names one of the six instances (R76). -/
def Fields.instNamed (f : Fields) : Bool := f.inst.toNat < 6

/-- `MODE` is not the reserved value 3 (R74). -/
def Fields.modeNamed (f : Fields) : Bool := f.mode != 3

/-- `PARITY` is not the reserved value 3 (R74). -/
def Fields.parityNamed (f : Fields) : Bool := f.parity != 3

/-- The five configuration fields are 0, as COMPUTE and DECONFIGURE must have them (R79). -/
def Fields.configZero (f : Fields) : Bool :=
  f.wl == 0 && f.mode == 0 && f.parity == 0 && f.flow == 0 && f.stop == 0

/-- The fields of a legal word (R79): `OP` selects which checks apply, `OP = 3` passes none. -/
def Fields.wellFormed (f : Fields) : Bool :=
  f.reservedZero &&
    ((f.op == 0 && f.inst == 0 && f.configZero) ||
     (f.op == 1 && f.instNamed && f.modeNamed && f.parityNamed) ||
     (f.op == 2 && f.instNamed && f.configZero))

/-- One row of the table of R79, its "further conditions" as three switches. -/
structure Row where
  mnemonic : String
  mask : CmdWord
  pattern : CmdWord
  instBelow6 : Bool
  modeNot3 : Bool
  parityNot3 : Bool
  deriving DecidableEq, Repr

/-- The three rows of R79. -/
def rows : List Row :=
  [⟨"COMPUTE", 0xFFFF, 0x0000, false, false, false⟩,
   ⟨"CONFIGURE", 0xC003, 0x0001, true, true, true⟩,
   ⟨"DECONFIGURE", 0xFFE3, 0x0002, true, false, false⟩]

/-- "A word matches a row when `(w & mask) = match` and the further conditions hold" (R79), the conditions
read off the raw bits `[4:2]`, `[7:6]`, `[9:8]`. -/
def Row.matchesWord (r : Row) (w : CmdWord) : Bool :=
  w &&& r.mask == r.pattern &&
    (!r.instBelow6 || decide (w.toNat / 4 % 8 ≤ 5)) &&
    (!r.modeNot3 || decide (w.toNat / 64 % 4 ≠ 3)) &&
    (!r.parityNot3 || decide (w.toNat / 256 % 4 ≠ 3))

/-- `Legal(w)` of R79. -/
def legal (w : CmdWord) : Bool := rows.any fun r => r.matchesWord w

end Sys2Proof
end

