-- ==== Sys2Proof/Decode.lean ====
section
/-! DEFINITION. Decoding a command word (30_encoding.md R74 to R80), total on every word and rejecting
by name; after it the encoder, written from the same table (R83). -/

namespace Sys2Proof

/-- Why a word is not legal (R80). The hardware records only `ILLEGAL_COMMAND`; the name is the reader's. -/
inductive Reject where
  /-- A bit of `[15:14]` is 1. -/
  | reservedBits
  /-- `OP = 3`. -/
  | reservedOp
  /-- `INST` is 6 or 7 in a CONFIGURE or DECONFIGURE word. -/
  | reservedInst
  /-- `MODE = 3` in a CONFIGURE word. -/
  | reservedMode
  /-- `PARITY = 3` in a CONFIGURE word. -/
  | reservedParity
  /-- A field the operation does not use is not 0. -/
  | unusedField
  deriving DecidableEq, Repr

/-- The fields of a word (R74). -/
def Fields.ofWord (w : CmdWord) : Fields where
  rsvd := w.extractLsb' 14 2
  stop := w.extractLsb' 12 2
  flow := w.extractLsb' 10 2
  parity := w.extractLsb' 8 2
  mode := w.extractLsb' 6 2
  wl := w.extractLsb' 5 1
  inst := w.extractLsb' 2 3
  op := w.extractLsb' 0 2

/-- The instance an `INST` value names (R76). -/
def instOf (b : BitVec 3) : Option Inst :=
  if h : b.toNat < 6 then some ⟨b.toNat, h⟩ else none

/-- The word length a `WL` value names (R74). -/
def wordLenOf (b : BitVec 1) : WordLen := if b = 0 then .wl8 else .wl9

/-- The mode a `MODE` value names (R74). -/
def modeOf (b : BitVec 2) : Option Mode :=
  if b = 0 then some .txOnly
  else if b = 1 then some .rxOnly
  else if b = 2 then some .txRx
  else none

/-- The parity setting a `PARITY` value names (R74). -/
def parityOf (b : BitVec 2) : Option Parity :=
  if b = 0 then some .none
  else if b = 1 then some .even
  else if b = 2 then some .odd
  else none

/-- The flow-control setting a `FLOW` value names (R74). -/
def flowOf (b : BitVec 2) : FlowCtl :=
  if b = 0 then .none else if b = 1 then .rts else if b = 2 then .cts else .both

/-- The stop-bit setting a `STOP` value names (R74). -/
def stopOf (b : BitVec 2) : StopBits :=
  if b = 0 then .one else if b = 1 then .half else if b = 2 then .two else .oneAndHalf

/-- A word with `OP = 0` (R79): every other field must be 0. -/
def decodeCompute (f : Fields) : Except Reject Instr :=
  if f.inst = 0 ∧ f.configZero then .ok .compute else .error .unusedField

/-- A word with `OP = 1` (R79). -/
def decodeConfigure (f : Fields) : Except Reject Instr :=
  match instOf f.inst with
  | none => .error .reservedInst
  | some i =>
    match modeOf f.mode with
    | none => .error .reservedMode
    | some m =>
      match parityOf f.parity with
      | none => .error .reservedParity
      | some p => .ok (.configure i (wordLenOf f.wl) m p (flowOf f.flow) (stopOf f.stop))

/-- A word with `OP = 2` (R79). -/
def decodeDeconfigure (f : Fields) : Except Reject Instr :=
  if f.configZero then
    match instOf f.inst with
    | none => .error .reservedInst
    | some i => .ok (.deconfigure i)
  else .error .unusedField

/-- The command a set of fields stands for, by `OP` (R75). -/
def decodeFields (f : Fields) : Except Reject Instr :=
  if f.rsvd ≠ 0 then .error .reservedBits
  else if f.op = 0 then decodeCompute f
  else if f.op = 1 then decodeConfigure f
  else if f.op = 2 then decodeDeconfigure f
  else .error .reservedOp

/-- The command a word stands for (R79), or why it is refused (R80). -/
def decode (w : CmdWord) : Except Reject Instr := decodeFields (Fields.ofWord w)

/-- The command of an opcode-table word whose bits are `w`: the table's bit 0 is the command word's. -/
def decodeTableWord (nbits w : Nat) : Option Instr :=
  if nbits ≤ 16 ∧ w < 2 ^ nbits then
    match decode (BitVec.ofNat 16 w) with
    | .ok i => some i
    | .error _ => none
  else none

/-! ## The encoder -/

/-- `WL` of a word length (R74). -/
def WordLen.code : WordLen → BitVec 1
  | .wl8 => 0
  | .wl9 => 1

/-- `MODE` of a mode (R74). -/
def Mode.code : Mode → BitVec 2
  | .txOnly => 0
  | .rxOnly => 1
  | .txRx => 2

/-- `PARITY` of a parity setting (R74). -/
def Parity.code : Parity → BitVec 2
  | .none => 0
  | .even => 1
  | .odd => 2

/-- `FLOW` of a flow-control setting (R74). -/
def FlowCtl.code : FlowCtl → BitVec 2
  | .none => 0
  | .rts => 1
  | .cts => 2
  | .both => 3

/-- `STOP` of a stop-bit setting (R74). -/
def StopBits.code : StopBits → BitVec 2
  | .one => 0
  | .half => 1
  | .two => 2
  | .oneAndHalf => 3

/-- The fields of a command's word (R79). -/
def Instr.fields : Instr → Fields
  | .compute => ⟨0, 0, 0, 0, 0, 0, 0, 0⟩
  | .configure i wl m p f st =>
    ⟨0, st.code, f.code, p.code, m.code, wl.code, BitVec.ofNat 3 i.val, 1⟩
  | .deconfigure i => ⟨0, 0, 0, 0, 0, 0, BitVec.ofNat 3 i.val, 2⟩

/-- The word of a set of fields, `00 ss ff pp mm w iii oo` from bit 15 down (R74). -/
def Fields.toWord (f : Fields) : CmdWord :=
  f.rsvd ++ f.stop ++ f.flow ++ f.parity ++ f.mode ++ f.wl ++ f.inst ++ f.op

/-- The word of a command (R83). -/
def encode (i : Instr) : CmdWord := i.fields.toWord

/-- A command is well formed when its fields are a legal word's. Its types leave no other (R79). -/
def Instr.wellFormed (i : Instr) : Bool := i.fields.wellFormed

end Sys2Proof
end

