-- ==== Sys2Proof/Machine/Operands.lean ====
section
/-! DEFINITION. The operand forms: a field of the command word turned into the value of a field of `U[i]`
(41_configure.md R115 to R119), the two numeric operands (30_encoding.md R78), and the fields of `U[i]`
themselves (20_memory.md R54, R55). -/

namespace Sys2Proof.Machine

/-- The value step C3A writes: 0 for 8 bits, 1 for 9 (R115). -/
def wlVal : WordLen → FieldVal
  | .wl8 => .wl false
  | .wl9 => .wl true

/-- `ModeBits`, as `(TXEN, RXEN)` (R116). -/
def modeVal : Mode → FieldVal
  | .txOnly => .mode true false
  | .rxOnly => .mode false true
  | .txRx => .mode true true

/-- `ParityBits`, as `(PAREN, PARSEL)` (R117). -/
def parityVal : Parity → FieldVal
  | .none => .parity false false
  | .even => .parity true false
  | .odd => .parity true true

/-- `FlowBits`, as `(RTSEN, CTSEN)` (R118). -/
def flowVal : FlowCtl → FieldVal
  | .none => .flow false false
  | .rts => .flow true false
  | .cts => .flow false true
  | .both => .flow true true

/-- The value step C3E writes: the number of the setting (R119). -/
def stopVal (st : StopBits) : FieldVal := .stop st.code

/-- `(RES_MANT << 4) | RES_FRAC` as the whole baud-rate register, zeros above (R35, R55, R123). -/
def baudregOf (mant : BitVec 12) (frac : BitVec 4) : Word := (mant ++ frac).setWidth 32

/-- The field a value is for. -/
def FieldVal.name : FieldVal → FieldName
  | .en _ => .en
  | .wl _ => .wl
  | .mode _ _ => .mode
  | .parity _ _ => .parity
  | .flow _ _ => .flow
  | .stop _ => .stop
  | .baudreg _ => .baudreg
  | .other _ => .other

/-- `U[i]` with one field replaced whole and "unrelated bits untouched" (R54, R55). -/
def FieldVal.apply (v : FieldVal) (x : Usart) : Usart :=
  match v with
  | .en b => { x with en := b }
  | .wl b => { x with wl := b }
  | .mode t r => { x with txen := t, rxen := r }
  | .parity e p => { x with paren := e, parsel := p }
  | .flow r c => { x with rtsen := r, ctsen := c }
  | .stop n => { x with stop := n }
  | .baudreg n => { x with baudreg := n }
  | .other n => { x with other := n }

/-- The operand `OP_CLK` as a natural (R78, R91). -/
def State.clkOperand (s : State) : Nat := s.opClk.toNat

/-- The operand `OP_BAUD` as a natural (R78, R91). -/
def State.baudOperand (s : State) : Nat := s.opBaud.toNat

/-- The first state of a command (R71, R75). -/
def firstState : Instr → SeqState
  | .compute => .k1Compute
  | .configure .. => .c1GateOn
  | .deconfigure _ => .x1RstAssert

/-- The peripheral instance a command works on, if any (R76). -/
def instrInst : Instr → Option Inst
  | .compute => none
  | .configure i .. => some i
  | .deconfigure i => some i

/-- The states in which SEQ runs a step of the command: its rows in the table of R26. -/
def hasRow : Instr → SeqState → Bool
  | .compute, .k1Compute => true
  | .configure .., .c1GateOn => true
  | .configure .., .c2Disable => true
  | .configure .., .c3aWl => true
  | .configure .., .c3bMode => true
  | .configure .., .c3cParity => true
  | .configure .., .c3dFlow => true
  | .configure .., .c3eStop => true
  | .configure .., .c4aClock => true
  | .configure .., .c4bDivide => true
  | .configure .., .c4cBaudreg => true
  | .configure .., .c5Enable => true
  | .deconfigure _, .x1RstAssert => true
  | .deconfigure _, .x2RstRelease => true
  | .deconfigure _, .x3GateOff => true
  | _, _ => false

end Sys2Proof.Machine
end

