-- ==== Sys2Proof/Machine/Ops.lean ====
section
/-! DEFINITION. The access primitives (20_memory.md R54 to R58), the step register's moves, the end of a
command and `raise` (30_encoding.md R72, 60_exceptions.md R152), acceptance and refusal (30_encoding.md
R71), and the fetch of the command in progress (10_state.md R27). -/

namespace Sys2Proof.Machine

/-! ## Registers of an instance, its gate and its reset line -/

/-- Write one field of `U[i]`. While `RST[i] = 1` "every field of `U[i]` holds its reset value" (R37), so
the write finds a held instance and changes nothing (log entry 8). -/
def State.writeField (s : State) (i : Inst) (v : FieldVal) : State :=
  { s with u := if s.rst.get i then s.u else s.u.set i (v.apply (s.u.get i)) }

/-- `GateWrite(i, b)` (R56). -/
def State.gateWrite (s : State) (i : Inst) (b : Bool) : State :=
  { s with gate := s.gate.set i b }

/-- `ResetWrite(i, b)`: with `b = 1` it also performs `U[i] <- USART_RESET` (R57, R37). -/
def State.resetWrite (s : State) (i : Inst) (b : Bool) : State :=
  { s with
    rst := s.rst.set i b
    u := if b then s.u.set i usartReset else s.u }

/-! ## The clock lookup -/

/-- What `ClockLookup(bus)` answers now: what the platform has fixed, else a free answer (R58, log entry 1). -/
def State.clockAnswer (s : State) (bus : Bus) : Option Word :=
  match (match bus with | .busA => s.clkA | .busB => s.clkB) with
  | some answer => answer
  | none => Config.clockLookup bus s.queries

/-- A lookup has been made: the next free answer is another one (R58, log entry 1). -/
def State.countQuery (s : State) : State := { s with queries := s.queries + 1 }

/-! ## Accesses (R59, R61, R125) -/

/-- One access SEQ makes. -/
inductive Access where
  /-- `GateWrite(i, b)`. -/
  | gate (i : Inst) (b : Bool)
  /-- `ResetWrite(i, b)`. -/
  | reset (i : Inst) (b : Bool)
  /-- A read of the register of `U[i]` that holds a field: plain storage, no side effect (R54). -/
  | read (i : Inst) (f : FieldName)
  /-- A write of one field of `U[i]`, the rest of its register as it was. -/
  | write (i : Inst) (v : FieldVal)
  /-- The oracle query `ClockLookup(bus)`. -/
  | query (bus : Bus)
  deriving DecidableEq, Repr

/-- The effect of one access, complete before its step ends (R59). -/
def State.access (s : State) : Access → State
  | .gate i b => s.gateWrite i b
  | .reset i b => s.resetWrite i b
  | .read _ _ => s
  | .write i v => s.writeField i v
  | .query _ => s.countQuery

/-- The accesses of a list, in its order: "Program order is the only order" (R59). -/
def State.accessAll (s : State) (l : List Access) : State := l.foldl State.access s

/-- `FieldRMW(i, F, v)`: a read of the field's register, then a write (R54). -/
def fieldRMW (i : Inst) (v : FieldVal) : List Access := [.read i v.name, .write i v]

/-- `RegOverwrite(i, BAUDREG, v)`: one write access and no read (R55). -/
def regOverwrite (i : Inst) (v : Word) : List Access := [.write i (.baudreg v)]

/-! ## The step register, the end of a command, and `raise` -/

/-- `SEQ_STATE <- q` (R26). -/
def State.goto (s : State) (q : SeqState) : State := { s with seqState := q }

/-- The end of a command: BUSY 0, DONE 1, ERR the code, IDLE, in one step (R72). -/
def State.finish (s : State) (e : ErrCode) : State :=
  { s with status := Status.finished e, seqState := .idle }

/-- `raise <Err>`, "the whole of trap entry for the block": the end of the command with the error's code,
"and nothing else" (R152). Nothing is saved, so nothing returns from it (R155). -/
def State.raise (s : State) (e : ErrCode) : State := s.finish e

/-! ## Acceptance, refusal and fetch -/

/-- The acceptance of a legal command already stored in `CMD` (R71). -/
def State.accept (s : State) (i : Instr) : State :=
  { s with status := Status.accepted, seqState := firstState i }

/-- The refusal of an illegal word already stored in `CMD`: the flags of `ILLEGAL_COMMAND`, and no other
state changes (R71, R80, R157). -/
def State.refuseWord (s : State) : State :=
  { s with status := Status.finished .illegalCommand }

/-- The host's write of a word to `CMD` while BUSY is 0: store it, then accept or refuse (R71). -/
def State.issue (s : State) (w : CmdWord) : State :=
  match decode w with
  | .ok i => { s with cmd := w }.accept i
  | .error _ => { s with cmd := w }.refuseWord

/-- The command in progress, read from `CMD` at the step that needs it (R27). -/
def State.fetch (s : State) : Except Reject Instr := decode s.cmd

/-- The instance the command in progress works on, if a command is in progress and works on one (R198). -/
def State.workingOn (s : State) : Option Inst :=
  match s.seqState with
  | .idle => none
  | _ =>
    match s.fetch with
    | .ok i => instrInst i
    | .error _ => none

/-- The power-on reset: every element of the state of R20 takes its value of R39, whatever command was in
progress (R190). The platform's clock answers, the environment and the moves to come are not part of it
(log entry 21). -/
def State.powerOn (s : State) : State :=
  { State.reset with
    clkA := s.clkA
    clkB := s.clkB
    queries := s.queries
    env := s.env
    agenda := s.agenda }

end Sys2Proof.Machine
end

