-- ==== Sys2Proof/Machine/Divcalc.lean ====
section
/-! DEFINITION. The Divisor Calculator (40_divisor.md R90 to R95) and the COMPUTE command (R96). -/

namespace Sys2Proof.Machine

/-- The two outcomes of DIVCALC: "There is no third outcome" (R91). -/
inductive DivResult where
  | ok (mantissa fraction : Nat)
  | invalidBaudRate
  deriving DecidableEq, Repr

/-- The divisor as one fixed-point natural with 4 fraction bits, rounded half up (R92, R13;
log entry 16). -/
def divisorD (clk baud : Nat) : Nat := (2 * clk + baud) / (2 * baud)

/-- DIVCALC with a mantissa field of `mantW` bits: the zero test first, then the fit test on the carried
mantissa (R94, R95). -/
def divcalc (mantW clk baud : Nat) : DivResult :=
  if baud = 0 ∨ clk = 0 then .invalidBaudRate
  else if 2 ^ mantW ≤ divisorD clk baud / 16 then .invalidBaudRate
  else .ok (divisorD clk baud / 16) (divisorD clk baud % 16)

/-- DIVCALC on the block's own operands (R90, R23). -/
def State.divide (s : State) : DivResult := divcalc Config.mantW s.clkOperand s.baudOperand

/-- `RES_MANT <- m ; RES_FRAC <- f`, together (R24). -/
def State.setResult (s : State) (m f : Nat) : State :=
  { s with resMant := BitVec.ofNat 12 m, resFrac := BitVec.ofNat 4 f }

/-- Step K1_COMPUTE (R96). -/
def computeStep (s : State) : State :=
  match s.divide with
  | .ok m f => (s.setResult m f).finish .none
  | .invalidBaudRate => s.raise .invalidBaudRate

/-- COMPUTE: its acceptance when the block is idle (R71), then its one step (R96). -/
def execCompute (s : State) : Outcome :=
  match s.seqState with
  | .idle => .next (s.accept .compute)
  | .k1Compute => .next (computeStep s)
  | _ => .fault .foreignStep

end Sys2Proof.Machine
end

