-- ==== Sys2Proof/Machine/Configure.lean ====
section
/-! DEFINITION. The CONFIGURE command: the accesses of each of its eleven steps and the steps themselves
(41_configure.md R110 to R124). -/

namespace Sys2Proof.Machine

/-- The accesses the step named by `SEQ_STATE` makes in a CONFIGURE, in order (R110, R125). Step C4B makes
none. -/
def configureAccesses (i : Inst) (wl : WordLen) (mode : Mode) (parity : Parity) (flow : FlowCtl)
    (stop : StopBits) (s : State) : List Access :=
  match s.seqState with
  | .c1GateOn => [.gate i true]
  | .c2Disable => fieldRMW i (.en false)
  | .c3aWl => fieldRMW i (wlVal wl)
  | .c3bMode => fieldRMW i (modeVal mode)
  | .c3cParity => fieldRMW i (parityVal parity)
  | .c3dFlow => fieldRMW i (flowVal flow)
  | .c3eStop => fieldRMW i (stopVal stop)
  | .c4aClock => [.query (Config.bus i)]
  | .c4cBaudreg => regOverwrite i (baudregOf s.resMant s.resFrac)
  | .c5Enable => fieldRMW i (.en true)
  | _ => []

/-- Step C4A_CLOCK on the lookup's answer: "Fails with `ConfigError::ClockUnavailable` if clock_lookup
cannot resolve", else the frequency is kept in `OP_CLK` (R120). -/
def clockStep (answer : Option Word) (s : State) : State :=
  match answer with
  | none => s.raise .clockUnavailable
  | some hz => { s with opClk := hz }.goto .c4bDivide

/-- Step C4B_DIVIDE: the Configuration invariant (R121), then the divisor (R122), in one step. -/
def divideStep (s : State) : State :=
  if s.baudOperand = 0 ∨ s.clkOperand < 2 * s.baudOperand then s.raise .baudOutOfRange
  else
    match s.divide with
    | .invalidBaudRate => s.raise .baudOutOfRange
    | .ok m f => (s.setResult m f).goto .c4cBaudreg

/-- CONFIGURE: its acceptance when the block is idle (R71), then the step `SEQ_STATE` names: its accesses,
then its successor (R26, R112 to R124). -/
def execConfigure (i : Inst) (wl : WordLen) (mode : Mode) (parity : Parity) (flow : FlowCtl)
    (stop : StopBits) (s : State) : Outcome :=
  let t := s.accessAll (configureAccesses i wl mode parity flow stop s)
  match s.seqState with
  | .idle => .next (s.accept (.configure i wl mode parity flow stop))
  | .c1GateOn => .next (t.goto .c2Disable)
  | .c2Disable => .next (t.goto .c3aWl)
  | .c3aWl => .next (t.goto .c3bMode)
  | .c3bMode => .next (t.goto .c3cParity)
  | .c3cParity => .next (t.goto .c3dFlow)
  | .c3dFlow => .next (t.goto .c3eStop)
  | .c3eStop => .next (t.goto .c4aClock)
  | .c4aClock => .next (clockStep (s.clockAnswer (Config.bus i)) t)
  | .c4bDivide => .next (divideStep t)
  | .c4cBaudreg => .next (t.goto .c5Enable)
  | .c5Enable => .next (t.finish .none)
  | .x1RstAssert => .fault .foreignStep
  | .x2RstRelease => .fault .foreignStep
  | .x3GateOff => .fault .foreignStep
  | .k1Compute => .fault .foreignStep

end Sys2Proof.Machine
end

