-- ==== Sys2Proof/Machine/Deconfigure.lean ====
section
/-! DEFINITION. The DECONFIGURE command: a reset pulse, then the clock gate off (42_deconfigure.md R140 to
R143). -/

namespace Sys2Proof.Machine

/-- The accesses the step named by `SEQ_STATE` makes in a DECONFIGURE (R144). -/
def deconfigureAccesses (i : Inst) (s : State) : List Access :=
  match s.seqState with
  | .x1RstAssert => [.reset i true]
  | .x2RstRelease => [.reset i false]
  | .x3GateOff => [.gate i false]
  | _ => []

/-- DECONFIGURE: its acceptance when the block is idle (R71), then the step `SEQ_STATE` names (R141, R142,
R143). -/
def execDeconfigure (i : Inst) (s : State) : Outcome :=
  let t := s.accessAll (deconfigureAccesses i s)
  match s.seqState with
  | .idle => .next (s.accept (.deconfigure i))
  | .x1RstAssert => .next (t.goto .x2RstRelease)
  | .x2RstRelease => .next (t.goto .x3GateOff)
  | .x3GateOff => .next (t.finish .none)
  | _ => .fault .foreignStep

end Sys2Proof.Machine
end

