-- ==== Sys2Proof/Machine/Dispatch.lean ====
section
/-! DEFINITION. The dispatch: one arm per constructor of `Instr`. `exec i s` is what command `i` does next
in `s`: its acceptance when the block is idle (30_encoding.md R71), else the step `SEQ_STATE` names
(10_state.md R26; log entry 7). -/

namespace Sys2Proof.Machine

def exec (i : Instr) (s : State) : Host.Outcome State Fault Refusal :=
  match i with
  | .compute => Sys2Proof.Machine.execCompute s
  | .configure inst wl mode parity flow stop => Sys2Proof.Machine.execConfigure inst wl mode parity flow stop s
  | .deconfigure inst => Sys2Proof.Machine.execDeconfigure inst s

end Sys2Proof.Machine
end

