-- ==== Sys2Proof/Machine/Environment.lean ====
section
/-! DEFINITION. What the environment does (60_exceptions.md part 3, 20_memory.md R58, 70_reset_and_hazards.md
R198): other writers of an instance, the clock tree, the Interrupt Line Controller, the Transfer Engine and
the Event Notifier. 00_scope.md R5 leaves the last three out of the block; they stand here as the block's
surroundings, each as the source describes it. -/

namespace Sys2Proof.Machine

/-! ## Exclusivity -/

/-- An environment move on instance `i`: "a model treats the breaking step as a fault of the run" while a
command works on `i` (R198), else the move. -/
def State.exclusive (s : State) (i : Inst) (move : Outcome) : Outcome :=
  if s.workingOn = some i then .fault (.exclusivity i) else move

/-- Another writer's write of a field of `U[i]`: no meaning while the gate is off (U15, N9). A transfer in
progress on `i` with no command on it does not stop the write, nor one of the gate or the reset line, although
"the Handle is the sole legitimate mutator of its instance's registers during a transfer" (R172). DESIGN CHOICE
(log entry 26). -/
def State.envWriteField (s : State) (i : Inst) (v : FieldVal) : Outcome :=
  s.exclusive i (if s.gate.get i then .next (s.writeField i v) else .refused (.unclockedInstance i))

/-! ## The Interrupt Line Controller -/

/-- A word with bit `k` set or cleared and every other bit unchanged (R161). -/
def putBit (w : Word) (k : Nat) (b : Bool) : Word :=
  if b then w ||| (1#32 <<< k) else w &&& ~~~(1#32 <<< k)

/-- A word with byte `b` replaced and the other three unchanged (R162). -/
def putByte (w : Word) (b : Nat) (v : Byte) : Word :=
  (w &&& ~~~(0xFF#32 <<< (8 * b))) ||| (v.setWidth 32 <<< (8 * b))

/-- The byte a priority is stored as: in the implemented top bits, the rest zero (R162). -/
def priorityByte (prioBits priority : Nat) : Byte := BitVec.ofNat 8 (priority <<< (8 - prioBits))

/-- The `k`-th word of a bank changed by `f`; a bank has no other words. -/
def putWord {n : Nat} (bank : Vector Word n) (k : Nat) (f : Word → Word) : Vector Word n :=
  bank.setIfInBounds k (f (bank.getD k 0))

/-- `set_enabled(line, enabled)`: `IEN[line / 32][line mod 32]`, and a line that is not there "fails fast"
(R161, R163). -/
def State.setEnabled (s : State) (line : Nat) (enabled : Bool) : Outcome :=
  if line < Config.nLines then
    .next { s with env := { s.env with
      ien := putWord s.env.ien (line / 32) fun w => putBit w (line % 32) enabled } }
  else .fault (.lineOutOfRange line)

/-- `set_priority(line, priority)`: the byte `line mod 4` of `IPR[line / 4]` replaced (R162), a line or a
priority out of range "fails fast" (R163). -/
def State.setPriority (s : State) (line priority : Nat) : Outcome :=
  if Config.nLines ≤ line then .fault (.lineOutOfRange line)
  else if 2 ^ Config.prioBits ≤ priority then .fault (.priorityTooWide priority)
  else
    .next { s with env := { s.env with
      ipr := putWord s.env.ipr (line / 4) fun w =>
        putByte w (line % 4) (priorityByte Config.prioBits priority) } }

/-! ## The Transfer Engine and the Event Notifier -/

/-- `Sending` and `Receiving`, the two halves of InProgress (R165, 90_conflicts.md C4). -/
def XferStatus.inProgress : XferStatus → Bool
  | .sending => true
  | .receiving => true
  | _ => false

/-- A transfer just created at initialization: Idle (R165). -/
def Transfer.created : Transfer := ⟨.idle, [], 0⟩

/-- A transfer just started: cursor 0 (R166). -/
def Transfer.started (dir : Direction) (buf : List Byte) : Transfer :=
  match dir with
  | .send => ⟨.sending, buf, 0⟩
  | .receive => ⟨.receiving, buf, 0⟩

/-- One unit of normal progress, and the byte it writes to the data register if it writes one: "write next
byte from buffer to the data register, advance cursor" or "read one byte from the data register into buffer
at cursor, advance cursor", Complete at the end of the buffer (R167). An empty buffer completes with no byte
moved (log entry 17). -/
def Transfer.progress (x : Transfer) (rx : Byte) : Transfer × Option Byte :=
  let cursor := if x.cursor < x.buf.length then x.cursor + 1 else x.cursor
  let status := if cursor < x.buf.length then x.status else .complete
  match x.status with
  | .sending => (⟨status, x.buf, cursor⟩, x.buf[x.cursor]?)
  | .receiving => (⟨status, x.buf.set x.cursor rx, cursor⟩, none)
  | _ => (x, none)

/-- The error kinds of the flags that are set, in the order the source lists them (R168). -/
def ErrorFlags.kinds (f : ErrorFlags) : List EventKind :=
  (if f.overrun then [.overrunError] else []) ++ (if f.framing then [.framingError] else []) ++
    (if f.parity then [.parityError] else [])

/-- The buffer of an aborted receive: the bytes before the cursor untouched, the others unspecified (R171,
U7; log entry 17). -/
def abortedBuffer (n : Nat) (x : Transfer) : List Byte :=
  x.buf.take x.cursor ++ (List.range (x.buf.length - x.cursor)).map (Config.abortedByte n)

/-- A transfer aborted at its cursor (R168). -/
def Transfer.aborted (n : Nat) (x : Transfer) : Transfer :=
  match x.status with
  | .receiving => { x with status := .error, buf := abortedBuffer n x }
  | _ => { x with status := .error }

/-- Whether a transfer, blocking or not, is in progress on instance `i` (R198). -/
def Env.transferOn (e : Env) (i : Inst) : Bool :=
  (match e.handles.get i with
   | some h => h.xfer.status.inProgress
   | none => false) ||
  (match e.blocking.get i with
   | some b => b.xfer.status.inProgress
   | none => false)

/-- Arm or disarm the notification of one direction, an abstract act (R166, 90_conflicts.md C6; log entry 18). -/
def Env.arm (e : Env) (i : Inst) (dir : Direction) (on : Bool) : Env :=
  match dir with
  | .send => { e with txArmed := e.txArmed.set i on }
  | .receive => { e with rxArmed := e.rxArmed.set i on }

/-- Record a byte written to the data register of instance `i` (R167). -/
def Env.write (e : Env) (i : Inst) (b : Option Byte) : Env :=
  { e with sent := e.sent.set i (e.sent.get i ++ b.toList) }

/-- Invoke the Event Notifier, by default a no-op (R170; log entry 20). -/
def Env.notify (e : Env) (i : Inst) (k : EventKind) : Env :=
  { e with notified := e.notified ++ [(i, k)] }

/-- Put the transfer of a Handle back. -/
def Env.putTransfer (e : Env) (i : Inst) (h : Handle) (x : Transfer) : Env :=
  { e with handles := e.handles.set i (some { h with xfer := x }) }

/-- The direction of a transfer in progress. -/
def XferStatus.direction : XferStatus → Direction
  | .receiving => .receive
  | _ => .send

/-- An interrupt event with no error flag: normal progress; at the end of the buffer disarm and notify a
Completion (R167). -/
def Env.irqProgress (e : Env) (i : Inst) (h : Handle) (rx : Byte) : Env :=
  let (x, byte) := h.xfer.progress rx
  let e := (e.putTransfer i h x).write i byte
  if x.status = .complete then (e.arm i h.xfer.status.direction false).notify i .completion else e

/-- An interrupt event with error flags: abort, Error, notify the specific kind (R168), any one of the flags
that are set (U6; log entry 17). -/
def Env.irqError (e : Env) (i : Inst) (h : Handle) (flags : ErrorFlags) : Env :=
  let kind := flags.kinds.getD (Config.errorPick e.picks % flags.kinds.length) .overrunError
  let e' := (e.putTransfer i h (h.xfer.aborted e.picks)).notify i kind
  { e' with picks := e.picks + 1 }

/-- What an access of the Transfer Engine to the data register or a status flag of instance `i`, for a transfer
in progress on it, leads to: the breach of R198 while a command works on `i`; no meaning with 9-bit words (U23,
N10), and none while the clock gate is off, which U15 says of a write and the model takes for a read too. DESIGN
CHOICE (log entry 11). Whether the direction is enabled (`TXEN` for a send, `RXEN` for a receive) the access does
not look at: the spec ties no transfer to the mode field. DESIGN CHOICE (log entry 28). -/
def State.dataAccess (s : State) (i : Inst) (move : Outcome) : Outcome :=
  s.exclusive i
    (if (s.u.get i).wl then .refused (.nineBitTransfer i)
     else if s.gate.get i then move
     else .refused (.unclockedInstance i))

/-- An interrupt event of an instance on which no Handle's transfer is in progress, neither Sending nor Receiving:
no effect (R167), and no breach of R198 whatever command works on the instance. With an error flag set there is
no transfer for R168 to abort (log entry 17). -/
def State.strayEvent (s : State) (i : Inst) (flags : ErrorFlags) : Outcome :=
  if flags.kinds = [] then .next s else .refused (.noTransfer i)

/-- One interrupt event of instance `i` (R167, R168): errors before normal progress. A disabled instance "never
raises an event" (R200), so there the move is no event and nothing happens. DEDUCED (log entry 25). -/
def State.irq (s : State) (i : Inst) (flags : ErrorFlags) (rx : Byte) : Outcome :=
  if (s.u.get i).en then
    match s.env.handles.get i with
    | none => s.strayEvent i flags
    | some h =>
      if h.xfer.status.inProgress then
        s.dataAccess i (.next { s with env :=
          if flags.kinds = [] then s.env.irqProgress i h rx else s.env.irqError i h flags })
      else s.strayEvent i flags
  else .next s

/-- `start_send` and `start_receive`: `Busy` while a transfer is in progress, which stays as it is; else arm
the notification and start at cursor 0 (R166, 90_conflicts.md C5). A start accesses no register of the
instance and does not look at `EN` or `GATE`: one on an instance that is not configured waits for events
(R200, R204). DESIGN CHOICE (log entry 23). -/
def State.start (s : State) (i : Inst) (dir : Direction) (buf : List Byte) : Outcome :=
  match s.env.handles.get i with
  | none => .refused (.noHandle i)
  | some h =>
    if h.xfer.status.inProgress then .next { s with env := { s.env with answer := some .busy } }
    else if s.env.transferOn i then .refused (.handleInUse i)
    else if (s.u.get i).wl then .refused (.nineBitTransfer i)
    else
      let e := (s.env.putTransfer i h (Transfer.started dir buf)).arm i dir true
      .next { s with env := { e with answer := none } }

/-- The caller resets a transfer in a terminal state to Idle (R166); there is no cancel (R169). -/
def State.clear (s : State) (i : Inst) : Outcome :=
  match s.env.handles.get i with
  | none => .refused (.noHandle i)
  | some h =>
    if h.xfer.status.inProgress then .refused (.handleInUse i)
    else .next { s with env := s.env.putTransfer i h { h.xfer with status := .idle } }

/-- Create the Handle of an instance (R165). -/
def State.bindHandle (s : State) (i : Inst) (cfg : Configuration) : Outcome :=
  match s.env.handles.get i with
  | some _ => .refused (.handleInUse i)
  | none =>
    .next { s with env := { s.env with handles := s.env.handles.set i (some ⟨cfg, Transfer.created⟩) } }

/-- Destroy the Handle of an instance (R165); doing so under its transfer is the hazard of R169 (U10). -/
def State.destroyHandle (s : State) (i : Inst) : Outcome :=
  match s.env.handles.get i with
  | none => .refused (.noHandle i)
  | some h =>
    if h.xfer.status.inProgress then .fault (.abandonedTransfer i)
    else .next { s with env := { s.env with handles := s.env.handles.set i none } }

/-- Begin a blocking `send` or `receive` (R169). Like a start it does not look at `EN` or `GATE` (R204).
DESIGN CHOICE (log entry 23). Nothing holds the surrounding software to one main context (R160): blocking calls on
several instances may be in progress at once, and the host may move during one. DESIGN CHOICE (log entry 27). -/
def State.block (s : State) (i : Inst) (dir : Direction) (buf : List Byte) (bound : Option Nat) : Outcome :=
  if s.env.transferOn i then .refused (.handleInUse i)
  else if (s.u.get i).wl then .refused (.nineBitTransfer i)
  else
    .next { s with env := { s.env with
      blocking := s.env.blocking.set i (some ⟨Transfer.started dir buf, bound⟩), answer := none } }

/-- One poll of a blocking call: a byte moves when the flag is set; else one unsuccessful poll is spent, and
with none left the call fails with `Timeout` (R169; log entry 19). A poll looks at "the relevant
data-empty/data-ready status flag" and at no error flag: R169 names `Timeout` as the one failure, R168 speaks
of interrupt events. DESIGN CHOICE (log entry 24). -/
def Env.pollStep (e : Env) (i : Inst) (b : Blocking) (ready : Bool) (rx : Byte) : Env :=
  if ready then
    let (x, byte) := b.xfer.progress rx
    { e.write i byte with blocking := e.blocking.set i (some { b with xfer := x }) }
  else
    match b.bound with
    | none => e
    | some 0 =>
      { e with
        blocking := e.blocking.set i (some { b with xfer := { b.xfer with status := .error } })
        answer := some .timeout }
    | some (n + 1) => { e with blocking := e.blocking.set i (some { b with bound := some n }) }

/-- One poll of the blocking call of instance `i` (R169). The flag of a disabled instance is never set, as it
"never raises an event" (R200). DEDUCED (log entry 25). -/
def State.poll (s : State) (i : Inst) (ready : Bool) (rx : Byte) : Outcome :=
  match s.env.blocking.get i with
  | none => .refused (.noTransfer i)
  | some b =>
    if b.xfer.status.inProgress then
      s.dataAccess i (.next { s with env := s.env.pollStep i b (ready && (s.u.get i).en) rx })
    else .refused (.noTransfer i)

/-- The clock tree fixes or frees the lookup's answer for one bus (R58). -/
def State.setClock (s : State) (bus : Bus) (answer : Option (Option Word)) : State :=
  match bus with
  | .busA => { s with clkA := answer }
  | .busB => { s with clkB := answer }

/-- One action of the environment. Those on the registers or the transfers of an instance keep to R198; an event
or a poll breaks it only where a transfer is in progress (`State.dataAccess`). -/
def State.envMove (s : State) : EnvAction → Outcome
  | .writeField i v => s.envWriteField i v
  | .writeGate i on => s.exclusive i (.next (s.gateWrite i on))
  | .writeReset i asserted => s.exclusive i (.next (s.resetWrite i asserted))
  | .setClock bus answer => .next (s.setClock bus answer)
  | .setEnabled line enabled => s.setEnabled line enabled
  | .setPriority line priority => s.setPriority line priority
  | .bindHandle i cfg => s.bindHandle i cfg
  | .destroyHandle i => s.destroyHandle i
  | .start i dir buf => s.exclusive i (s.start i dir buf)
  | .clear i => s.clear i
  | .irq i flags rx => s.irq i flags rx
  | .block i dir buf bound => s.exclusive i (s.block i dir buf bound)
  | .poll i ready rx => s.poll i ready rx

end Sys2Proof.Machine
end

