-- ==== Sys2Proof/Machine/Agents.lean ====
section
/-! DEFINITION. The agents' moves (10_state.md R21): the host's reads and writes of the block's registers by
byte offset (20_memory.md R51, 30_encoding.md R71, R73), SEQ's turn (10_state.md R26, R27), and one move of
any agent. -/

namespace Sys2Proof.Machine

/-- The block's seven registers (R20). -/
inductive BlockReg where
  | cmd
  | opClk
  | opBaud
  | resMant
  | resFrac
  | status
  | seqState
  deriving DecidableEq, Repr

/-- The register at a byte offset from `BLK_BASE`; "No other offset is part of the block" (R51). -/
def blockRegAt (offset : Nat) : Option BlockReg :=
  if offset = 0x00 then some .cmd
  else if offset = 0x04 then some .opClk
  else if offset = 0x08 then some .opBaud
  else if offset = 0x0C then some .resMant
  else if offset = 0x10 then some .resFrac
  else if offset = 0x14 then some .status
  else if offset = 0x18 then some .seqState
  else none

/-- A register as the host reads it: "bits of a register above its stated width read as 0" (R51). -/
def State.readReg (s : State) : BlockReg → Word
  | .cmd => s.cmd.setWidth 32
  | .opClk => s.opClk
  | .opBaud => s.opBaud
  | .resMant => s.resMant.setWidth 32
  | .resFrac => s.resFrac.setWidth 32
  | .status => s.status.word.setWidth 32
  | .seqState => s.seqState.code.setWidth 32

/-- What the host reads at an offset, if the block has a register there (R51). Reading changes nothing (R25). -/
def State.hostRead (s : State) (offset : Nat) : Option Word := (blockRegAt offset).map s.readReg

/-- The host's write of a word to `CMD`: ignored while BUSY (R73); else stored and issued (R71), and a
command on an instance with a transfer in progress breaks the caller's contract (R111, R198; log entry 10). -/
def State.writeCmd (s : State) (w : CmdWord) : Outcome :=
  if s.status.busy then .next s
  else
    match decode w with
    | .error _ => .next (s.issue w)
    | .ok i =>
      match instrInst i with
      | none => .next (s.issue w)
      | some k => if s.env.transferOn k then .fault (.transferActive k) else .next (s.issue w)

/-- The host's write of a value at an offset: operands are ignored while BUSY (R23, R73), bits above a
register's width and writes to read-only registers or other offsets are ignored (R51, R60; log entry 15). -/
def State.hostWrite (s : State) (offset : Nat) (v : Word) : Outcome :=
  match blockRegAt offset with
  | some .cmd => s.writeCmd (v.setWidth 16)
  | some .opClk => .next (if s.status.busy then s else { s with opClk := v })
  | some .opBaud => .next (if s.status.busy then s else { s with opBaud := v })
  | some .resMant => .next s
  | some .resFrac => .next s
  | some .status => .next s
  | some .seqState => .next s
  | none => .next s

/-- SEQ's turn: in IDLE it waits for a command, else it runs the step of the command in `CMD` that
`SEQ_STATE` names (R26, R27). -/
def State.seqTurn (s : State) : Outcome :=
  match s.seqState with
  | .idle => .next s
  | _ =>
    match s.fetch with
    | .ok i => exec i s
    | .error _ => .fault .illegalInProgress

/-- One move of one agent (R21, R62). -/
def State.move (s : State) : Event → Outcome
  | .hostWrite offset v => s.hostWrite offset v
  | .hostRead _ => .next s
  | .seq => s.seqTurn
  | .env a => s.envMove a
  | .powerOn => .next s.powerOn

end Sys2Proof.Machine
end

