-- ==== Sys2Proof/Machine/Step.lean ====
section
/-! DEFINITION. One step of the machine: the next move on the agenda, or SEQ's turn when the agenda is empty
(10_state.md R21, 20_memory.md R62; log entry 6). -/

namespace Sys2Proof.Machine

/-- One step. -/
def step (s : State) : Host.Outcome State Fault Refusal :=
  match s.agenda with
  | [] => s.seqTurn
  | e :: rest => State.move { s with agenda := rest } e

/-- The state in which the host has just written the command word to `CMD` of an idle block and SEQ moves
next: `CMD`, `STATUS` and `SEQ_STATE` as the write leaves them (30_encoding.md R71; log entry 7). -/
def State.withFetchWord (s : State) (nbits w : Nat) : State :=
  State.issue { s with agenda := [], seqState := .idle } (BitVec.ofNat 16 (w % 2 ^ nbits))

end Sys2Proof.Machine
end

