-- ==== Sys2Proof/Safety.lean ====
section
/-! DEFINITION. What counts as a good state and a good run of BRDC-SEQ, in the terms the statements use:
the invariant of the state (10_state.md R41, 41_configure.md R113, 10_state.md R36, R37), the reset line's
own invariant, and the list of accesses SEQ makes (41_configure.md R125). -/

namespace Sys2Proof.Machine

/-- The steps of CONFIGURE that come after the gate was switched on (R112). -/
def SeqState.afterGateOn : SeqState → Bool
  | .c2Disable => true
  | .c3aWl => true
  | .c3bMode => true
  | .c3cParity => true
  | .c3dFlow => true
  | .c3eStop => true
  | .c4aClock => true
  | .c4bDivide => true
  | .c4cBaudreg => true
  | .c5Enable => true
  | _ => false

/-- The steps of CONFIGURE that come after the disable: "From the end of this step until step C5_ENABLE,
`U[i].EN = 0`" (R113). -/
def SeqState.afterDisable : SeqState → Bool
  | .c2Disable => false
  | q => q.afterGateOn

/-- The command in `CMD` has a step in `SEQ_STATE`'s row (R26). -/
def State.inRow (s : State) : Prop :=
  match s.fetch with
  | .ok i => hasRow i s.seqState = true
  | .error _ => False

/-- The invariant of the state. -/
structure StateInv (s : State) : Prop where
  /-- "`SEQ_STATE = IDLE` if and only if `BUSY = 0`" (R25, R41). -/
  idle_iff : s.seqState = .idle ↔ s.status.busy = false
  /-- "`BUSY = 1` implies `DONE = 0` and `ERR = 0`" (R25, R41). -/
  busy_clear : s.status.busy = true → s.status.done = false ∧ s.status.err = 0
  /-- Codes 5, 6 and 7 are never written (R150, U18). -/
  err_le : s.status.err.toNat ≤ 4
  /-- `SEQ_STATE` names a step of the command in `CMD` (R26, R27). -/
  in_row : s.seqState ≠ .idle → s.inRow
  /-- While a reset line is asserted its instance holds its reset value (R37). -/
  held : ∀ i, s.rst.get i = true → s.u.get i = usartReset
  /-- "every access of CONFIGURE to `U[i]` comes after step 1": its gate is on (R36). -/
  gated : ∀ i, s.workingOn = some i → s.seqState.afterGateOn = true → s.gate.get i = true
  /-- The instance is disabled while its fields are written (R113). -/
  disabled : ∀ i, s.workingOn = some i → s.seqState.afterDisable = true → (s.u.get i).en = false
  /-- The progress cursor of a Handle's transfer stays inside its buffer (R165, R167). -/
  cursor_le : ∀ i h, s.env.handles.get i = some h → h.xfer.cursor ≤ h.xfer.buf.length
  /-- So does the cursor of a blocking call (R169). -/
  blocking_cursor_le : ∀ i b, s.env.blocking.get i = some b → b.xfer.cursor ≤ b.xfer.buf.length

/-- "`RST[i] = 1` only while `SEQ_STATE = X2_RST_RELEASE` with `CMD.INST = i`" (R41). -/
def ResetOnlyInPulse (s : State) : Prop :=
  ∀ i, s.rst.get i = true → s.seqState = .x2RstRelease ∧ s.workingOn = some i

/-- The next move is not an environment's write of a reset line, R41's proviso. -/
def State.noResetWriteNext (s : State) : Prop :=
  ∀ i b rest, s.agenda ≠ .env (.writeReset i b) :: rest

/-- The accesses SEQ's next step makes (R125, R144). -/
def State.nextAccesses (s : State) : List Access :=
  match s.fetch with
  | .ok (.configure i wl mode parity flow stop) => configureAccesses i wl mode parity flow stop s
  | .ok (.deconfigure i) => deconfigureAccesses i s
  | _ => []

/-- The accesses of SEQ's next `n` steps, when nobody else moves. -/
def State.accessTrace : Nat → State → List Access
  | 0, _ => []
  | n + 1, s =>
    s.nextAccesses ++
      (match s.seqTurn with
       | .next t => State.accessTrace n t
       | .fault _ => []
       | .refused _ => [])

/-- No transfer of the environment is in progress on the command's instance: the caller's duty (R111). -/
def State.callerReady (s : State) (i : Instr) : Bool :=
  match instrInst i with
  | none => true
  | some k => !s.env.transferOn k

/-- The host's write of a command's word to `CMD`. -/
def issueEvent (i : Instr) : Event := .hostWrite 0x00 ((encode i).setWidth 32)

/-- `n` steps of the machine. -/
def runFor (n : Nat) (s : State) : Outcome := Host.Core.run Sys2Proof.core n s

/-- The next state of an outcome, if it has one. -/
def nextOf (o : Outcome) : Option State :=
  match o with
  | .next s => some s
  | .fault _ => none
  | .refused _ => none

end Sys2Proof.Machine
end

