-- ==== Sys2Proof/Certificates/Slice0/Obligations.lean ====
section
/-! DEFINITION. The statements for the provers, from the spec's numbered rules. -/

open Sys2Proof Sys2Proof.Machine

/-! ## Encoding (30_encoding.md) -/

/-- R74, R79, R83: the decoder and the encoder are inverse to each other, on every word and every command. -/
def Obligations.DecodeEncodeAgree : Prop :=
  ∀ (w : CmdWord) (i : Instr), decode w = .ok i ↔ encode i = w

/-- R79: `Legal(w)` of the spec's table is exactly what the decoder accepts, 1 word of COMPUTE, 1728 of
CONFIGURE, 6 of DECONFIGURE. -/
def Obligations.LegalWordsAreTheTable : Prop :=
  (∀ w : CmdWord, legal w = true ↔ ∃ i, decode w = .ok i) ∧
    ∃ c g d : List CmdWord,
      c.Nodup ∧ c.length = 1 ∧ (∀ w, w ∈ c ↔ decode w = .ok .compute) ∧
      g.Nodup ∧ g.length = 1728 ∧
      (∀ w, w ∈ g ↔ ∃ i wl m p f st, decode w = .ok (.configure i wl m p f st)) ∧
      d.Nodup ∧ d.length = 6 ∧ (∀ w, w ∈ d ↔ ∃ i, decode w = .ok (.deconfigure i))

/-- R74, R83: words written out bit by bit from the format. -/
def Obligations.SampleWordsDecode : Prop :=
  decode 0b0000000000000000#16 = .ok .compute ∧
    decode 0b0010111000100001#16 = .ok (.configure 0 .wl9 .txOnly .odd .both .two) ∧
    decode 0b0011100000010001#16 = .ok (.configure 4 .wl8 .txOnly .none .cts .oneAndHalf) ∧
    decode 0b0000000000010110#16 = .ok (.deconfigure 5)

/-! ## The host's interface (20_memory.md, 30_encoding.md) -/

/-- R71: a host write to `CMD` while BUSY is 0 stores the word and, if it is legal, accepts the command; if
not, refuses it; nothing else changes. The caller's duty of R111 is the premise. -/
def Obligations.HostWriteIssuesCommand : Prop :=
  ∀ (s : State) (v : Word) (rest : List Event) (w : CmdWord),
    s.agenda = .hostWrite 0x00 v :: rest → w = v.setWidth 16 → s.status.busy = false →
    (∀ i, decode w = .ok i → s.callerReady i = true →
      step s = .next { s with
        agenda := rest, cmd := w, status := ⟨true, false, 0⟩,
        seqState := if w.toNat % 4 = 0 then .k1Compute else if w.toNat % 4 = 1 then .c1GateOn
          else .x1RstAssert }) ∧
    ((∀ i, decode w ≠ .ok i) →
      step s = .next { s with agenda := rest, cmd := w, status := ⟨false, true, 4⟩ })

/-- R157: a refused word is stored in `CMD`, and nothing else changes but `STATUS`. -/
def Obligations.IllegalWordChangesOnlyCmdAndStatus : Prop :=
  ∀ (s t : State) (v : Word) (rest : List Event),
    s.agenda = .hostWrite 0x00 v :: rest → s.status.busy = false → legal (v.setWidth 16) = false →
    step s = .next t →
      t.cmd = v.setWidth 16 ∧ t.status.word = 0x12 ∧
        t = { s with agenda := rest, cmd := t.cmd, status := t.status }

/-- R73: a host write to `CMD`, `OP_CLK` or `OP_BAUD` while BUSY is 1 is ignored. -/
def Obligations.WritesWhileBusyAreIgnored : Prop :=
  ∀ (s : State) (offset : Nat) (v : Word) (rest : List Event),
    s.agenda = .hostWrite offset v :: rest → offset = 0x00 ∨ offset = 0x04 ∨ offset = 0x08 →
    s.status.busy = true → step s = .next { s with agenda := rest }

/-- R51: the register map. Reads at the seven offsets give the registers with zeros above their widths, no
other offset has a register; writes to read-only registers and to other offsets are ignored; a write of an
operand stores it whole; the bits of a `CMD` write above bit 15 are ignored. -/
def Obligations.RegisterMap : Prop :=
  ∀ s : State,
    (∀ r, (s.hostRead 0x00 = some r → r.toNat = s.cmd.toNat) ∧
      (s.hostRead 0x04 = some r → r = s.opClk) ∧ (s.hostRead 0x08 = some r → r = s.opBaud) ∧
      (s.hostRead 0x0C = some r → r.toNat = s.resMant.toNat) ∧
      (s.hostRead 0x10 = some r → r.toNat = s.resFrac.toNat) ∧
      (s.hostRead 0x14 = some r →
        r.toNat = 4 * s.status.err.toNat + 2 * s.status.done.toNat + s.status.busy.toNat) ∧
      (s.hostRead 0x18 = some r → r.toNat = s.seqState.code.toNat)) ∧
    (∀ offset, (s.hostRead offset).isSome = true ↔ offset ∈ [0x00, 0x04, 0x08, 0x0C, 0x10, 0x14, 0x18]) ∧
    (∀ offset v, offset ∉ [0x00, 0x04, 0x08] → s.hostWrite offset v = .next s) ∧
    (s.status.busy = false → ∀ v, s.hostWrite 0x00 v = s.writeCmd (v.setWidth 16) ∧
      s.hostWrite 0x04 v = .next { s with opClk := v } ∧ s.hostWrite 0x08 v = .next { s with opBaud := v }) ∧
    (∀ v v' : Word, v.toNat % 65536 = v'.toNat % 65536 → s.hostWrite 0x00 v = s.hostWrite 0x00 v') ∧
    (∀ offset rest, s.agenda = .hostRead offset :: rest → step s = .next { s with agenda := rest })

/-- R23: the host's writes of the two operands while the block is not BUSY. -/
def Obligations.OperandWritesLand : Prop :=
  ∀ (s : State) (v : Word) (rest : List Event), s.status.busy = false →
    (s.agenda = .hostWrite 0x04 v :: rest → step s = .next { s with agenda := rest, opClk := v }) ∧
    (s.agenda = .hostWrite 0x08 v :: rest → step s = .next { s with agenda := rest, opBaud := v })

/-! ## Steps (10_state.md R26, R27) -/

/-- R26, R27: where `CMD` holds a command and SEQ moves, a step is that command's `exec`; in IDLE SEQ waits;
and `withFetchWord` puts the next step there. -/
def Obligations.StepRunsTheDecodedCommand : Prop :=
  (∀ (s : State) (i : Instr), s.seqState ≠ .idle → decode s.cmd = .ok i →
    (s.agenda = [] → step s = exec i s) ∧
    (∀ rest, s.agenda = .seq :: rest → step s = exec i { s with agenda := rest })) ∧
  (∀ s : State, s.seqState = .idle → s.agenda = [] → step s = .next s) ∧
  (∀ (s : State) (i : Instr),
    step (s.withFetchWord 16 (encode i).toNat) = exec i (s.withFetchWord 16 (encode i).toNat))

/-- R26: "no step is skipped and none repeats": SEQ goes from each state only to the successor of the table,
or to IDLE where a command ends (C4A, C4B, C5, X3, K1). -/
def Obligations.SeqFollowsTheTable : Prop :=
  ∀ (s t : State), s.seqState ≠ .idle → s.seqTurn = .next t →
    (s.seqState.code.toNat, t.seqState.code.toNat) ∈
      [(1, 2), (2, 3), (3, 4), (4, 5), (5, 6), (6, 7), (7, 8), (8, 9), (8, 0), (9, 10), (9, 0), (10, 11),
       (11, 0), (12, 13), (13, 14), (14, 0), (15, 0)]

/-- R26: "IDLE is left only by the acceptance of a command", a host write of a legal word to `CMD`. -/
def Obligations.OnlyAcceptanceLeavesIdle : Prop :=
  ∀ s t : State, s.seqState = .idle → step s = .next t → t.seqState ≠ .idle →
    ∃ v rest i, s.agenda = .hostWrite 0x00 v :: rest ∧ s.status.busy = false ∧
      decode (v.setWidth 16) = .ok i ∧ t.cmd = v.setWidth 16 ∧ t.seqState = firstState i

/-- Log entry 7 (the model's choice, after R71): `exec` of a command in IDLE is its acceptance. -/
def Obligations.ExecInIdleAccepts : Prop :=
  ∀ (i : Instr) (s : State), s.seqState = .idle →
    exec i s = .next { s with status := ⟨true, false, 0⟩, seqState := firstState i }

/-- R27, R63: a command in progress cannot be modified: while BUSY, no step of anybody but the power-on reset
changes `CMD` or `OP_BAUD`, and `OP_CLK` changes only in step C4A. -/
def Obligations.CommandInProgressIsFixed : Prop :=
  ∀ s t : State, s.status.busy = true → step s = .next t → (∀ rest, s.agenda ≠ .powerOn :: rest) →
    t.cmd = s.cmd ∧ t.opBaud = s.opBaud ∧ (s.seqState ≠ .c4aClock → t.opClk = s.opClk)

/-! ## The Divisor Calculator (40_divisor.md) -/

/-- R93: the one formula is the source's two-step definition, over the rationals, with its carry. -/
def Obligations.DivisorIsTheTwoStepDefinition : Prop :=
  ∀ clk baud : Nat, baud ≠ 0 →
    let m0 : ℤ := ⌊(clk : ℚ) / (baud * 16)⌋
    let f0 : ℤ := ⌊16 * ((clk : ℚ) / (baud * 16) - m0) + 1 / 2⌋
    0 ≤ f0 ∧ f0 ≤ 16 ∧
      ((divisorD clk baud / 16 : Nat) : ℤ) = (if f0 = 16 then m0 + 1 else m0) ∧
      ((divisorD clk baud % 16 : Nat) : ℤ) = (if f0 = 16 then 0 else f0) ∧
      (Int.fract ((clk : ℚ) / baud) = 1 / 2 ↔ baud % 2 = 0 ∧ clk % baud = baud / 2)

/-- R95: with `MANT_W = 12` DIVCALC succeeds exactly when both operands are not 0 and `2*clock < 131071*baud`,
and then with the two halves of `D`, the mantissa below 4096 after the carry. -/
def Obligations.DivcalcSucceedsExactly : Prop :=
  ∀ clk baud : Nat,
    ((∃ m f, divcalc 12 clk baud = .ok m f) ↔ clk ≠ 0 ∧ baud ≠ 0 ∧ 2 * clk < 131071 * baud) ∧
    ((∃ m f, divcalc 12 clk baud = .ok m f) ↔
      clk ≠ 0 ∧ baud ≠ 0 ∧ (2 * clk + baud) / (2 * baud) ≤ 65535) ∧
    (∀ m f, divcalc 12 clk baud = .ok m f →
      m = (2 * clk + baud) / (2 * baud) / 16 ∧ f = (2 * clk + baud) / (2 * baud) % 16 ∧ m < 4096)

/-- R98: on success the divisor is within 1/32 of `clock ÷ (16*baud)`, and the fraction is a 4-bit number; the
source's own example. -/
def Obligations.DivisorErrorBound : Prop :=
  (∀ w clk baud m f : Nat, divcalc w clk baud = .ok m f →
    |(m : ℚ) + (f : ℚ) / 16 - (clk : ℚ) / (16 * baud)| ≤ 1 / 32 ∧ f ≤ 15) ∧
  divcalc 12 16000000 9600 = .ok 104 3

/-- R99: the widths of the intermediate values for 32-bit operands: 34 bits are enough for the numerator and 33
are not; the equivalent form of `D`, for which 33 are enough. -/
def Obligations.DivisorNeedsThirtyFourBits : Prop :=
  (∀ clk baud : Nat, clk < 2 ^ 32 → baud < 2 ^ 32 → baud ≠ 0 →
    2 * clk + baud < 3 * 2 ^ 32 ∧ 3 * 2 ^ 32 < 2 ^ 34 ∧ 2 * baud ≤ 2 ^ 33 - 2 ∧
      divisorD clk baud ≤ 2 * clk + baud ∧
      (clk + baud / 2) / baud = divisorD clk baud ∧ clk + baud / 2 < 2 ^ 33) ∧
  ∃ clk baud : Nat, clk < 2 ^ 32 ∧ baud < 2 ^ 32 ∧ baud ≠ 0 ∧ 2 ^ 33 ≤ 2 * clk + baud

/-- R96: COMPUTE's step, by cases on R94's conditions. The boundary 4096 is `2^MANT_W` with `MANT_W` fixed at the
spec's default 12 (R8), the model's choice, log entry 4. -/
def Obligations.ComputeCompletes : Prop :=
  ∀ (s : State) (D : Nat), s.seqState = .k1Compute →
    D = (2 * s.opClk.toNat + s.opBaud.toNat) / (2 * s.opBaud.toNat) →
    ∃ t, exec .compute s = .next t ∧
      (s.opBaud.toNat = 0 ∨ s.opClk.toNat = 0 ∨ 4096 ≤ D / 16 →
        t = { s with status := ⟨false, true, 1⟩, seqState := .idle }) ∧
      (s.opBaud.toNat ≠ 0 ∧ s.opClk.toNat ≠ 0 ∧ D / 16 < 4096 →
        t.resMant.toNat = D / 16 ∧ t.resFrac.toNat = D % 16 ∧
          t = { s with
            resMant := t.resMant, resFrac := t.resFrac, status := ⟨false, true, 0⟩, seqState := .idle })

/-- R97: COMPUTE has no memory: two states with the same operands get the same answer. -/
def Obligations.ComputeDependsOnOperandsOnly : Prop :=
  ∀ s s' t t' : State, s.seqState = .k1Compute → s'.seqState = .k1Compute →
    s.opClk = s'.opClk → s.opBaud = s'.opBaud →
    exec .compute s = .next t → exec .compute s' = .next t' →
      t.status = t'.status ∧
        (t.status.err = 0 → t.resMant = t'.resMant ∧ t.resFrac = t'.resFrac)

/-- R96: COMPUTE's frame. -/
def Obligations.ComputeFrame : Prop :=
  ∀ s t : State, exec .compute s = .next t →
    t.cmd = s.cmd ∧ t.opClk = s.opClk ∧ t.opBaud = s.opBaud ∧ t.u = s.u ∧ t.gate = s.gate ∧
      t.rst = s.rst ∧ t.clkA = s.clkA ∧ t.clkB = s.clkB ∧ t.queries = s.queries ∧ t.env = s.env ∧
      t.agenda = s.agenda ∧
      (s.seqState = .idle ∨ t.status.err ≠ 0 → t.resMant = s.resMant ∧ t.resFrac = s.resFrac)

/-! ## The access primitives (20_memory.md) -/

/-- R54: a field write replaces its field whole and leaves every other field of `U[i]`, `OTHER` included, every
other instance and every other register. R55: the overwrite of `BAUDREG` is one write and no read, and leaves
no bit of the old value. While the reset line is held both leave the instance as it is: the model's reading of
R37 (log entry 8). -/
def Obligations.FieldRMWLeavesUnrelatedBits : Prop :=
  (∀ (s : State) (i : Inst) (w : Word),
    regOverwrite i w = [.write i (.baudreg w)] ∧
    (s.rst.get i = true → s.accessAll (regOverwrite i w) = s) ∧
    (s.rst.get i = false →
      s.accessAll (regOverwrite i w) = { s with u := s.u.set i { s.u.get i with baudreg := w } })) ∧
  ∀ (s : State) (i : Inst) (v : FieldVal) (t : State), t = s.accessAll (fieldRMW i v) →
    t = { s with u := t.u } ∧ (∀ j, j ≠ i → t.u.get j = s.u.get j) ∧
    (s.rst.get i = true → t = s) ∧
    (s.rst.get i = false →
      (v.name ≠ .en → (t.u.get i).en = (s.u.get i).en) ∧
      (v.name ≠ .wl → (t.u.get i).wl = (s.u.get i).wl) ∧
      (v.name ≠ .mode → (t.u.get i).txen = (s.u.get i).txen ∧ (t.u.get i).rxen = (s.u.get i).rxen) ∧
      (v.name ≠ .parity →
        (t.u.get i).paren = (s.u.get i).paren ∧ (t.u.get i).parsel = (s.u.get i).parsel) ∧
      (v.name ≠ .flow →
        (t.u.get i).rtsen = (s.u.get i).rtsen ∧ (t.u.get i).ctsen = (s.u.get i).ctsen) ∧
      (v.name ≠ .stop → (t.u.get i).stop = (s.u.get i).stop) ∧
      (v.name ≠ .baudreg → (t.u.get i).baudreg = (s.u.get i).baudreg) ∧
      (v.name ≠ .other → (t.u.get i).other = (s.u.get i).other) ∧
      (∀ a b, v = .mode a b → (t.u.get i).txen = a ∧ (t.u.get i).rxen = b) ∧
      (∀ a b, v = .parity a b → (t.u.get i).paren = a ∧ (t.u.get i).parsel = b) ∧
      (∀ a b, v = .flow a b → (t.u.get i).rtsen = a ∧ (t.u.get i).ctsen = b) ∧
      (∀ a, v = .en a → (t.u.get i).en = a) ∧ (∀ a, v = .wl a → (t.u.get i).wl = a) ∧
      (∀ a, v = .stop a → (t.u.get i).stop = a) ∧
      (∀ a, v = .baudreg a → (t.u.get i).baudreg = a) ∧ (∀ a, v = .other a → (t.u.get i).other = a))

/-- R56, R57: a gate write and a reset write change one bit, the assertion of a reset line also the whole of
`U[i]`. -/
def Obligations.GateAndResetWrites : Prop :=
  ∀ (s : State) (i : Inst) (b : Bool),
    (s.gateWrite i b = { s with gate := (s.gateWrite i b).gate } ∧ (s.gateWrite i b).gate.get i = b ∧
      ∀ j, j ≠ i → (s.gateWrite i b).gate.get j = s.gate.get j) ∧
    (s.resetWrite i b = { s with rst := (s.resetWrite i b).rst, u := (s.resetWrite i b).u } ∧
      (s.resetWrite i b).rst.get i = b ∧
      (∀ j, j ≠ i → (s.resetWrite i b).rst.get j = s.rst.get j ∧ (s.resetWrite i b).u.get j = s.u.get j) ∧
      (b = true → (s.resetWrite i b).u.get i = usartReset) ∧
      (b = false → (s.resetWrite i b).u = s.u))

/-- R61: an access made twice in a row leaves the same state as made once. The oracle query is left out: it
counts the model's own free answers (log entry 1). -/
def Obligations.AccessesAreIdempotent : Prop :=
  ∀ (s : State) (a : Access), (∀ b, a ≠ .query b) → (s.access a).access a = s.access a

/-! ## CONFIGURE (41_configure.md) -/

/-- R112, R113: steps C1 and C2, and the disabled window C2 opens. The second clause says the step as the rule
does, the third says it field by field where the reset line is released (R37, log entry 8). -/
def Obligations.ConfigureGateOnThenDisable : Prop :=
  ∀ (s : State) (i : Inst) (wl : WordLen) (m : Mode) (p : Parity) (f : FlowCtl) (st : StopBits),
    (s.seqState = .c1GateOn →
      exec (.configure i wl m p f st) s =
        .next { s with gate := s.gate.set i true, seqState := .c2Disable }) ∧
    (s.seqState = .c2Disable →
      exec (.configure i wl m p f st) s =
        .next { s.accessAll (fieldRMW i (.en false)) with seqState := .c3aWl }) ∧
    (s.seqState = .c2Disable → s.rst.get i = false →
      exec (.configure i wl m p f st) s =
        .next { s with u := s.u.set i { s.u.get i with en := false }, seqState := .c3aWl }) ∧
    (StateInv s → s.workingOn = some i → s.seqState.afterDisable = true → (s.u.get i).en = false)

/-- R115 to R119: the five field writes of step 3, as `FieldRMW` of the value each rule's table gives. -/
def Obligations.ConfigureWritesTheFields : Prop :=
  ∀ (s : State) (i : Inst) (wl : WordLen) (m : Mode) (p : Parity) (f : FlowCtl) (st : StopBits),
    (s.seqState = .c3aWl →
      exec (.configure i wl m p f st) s = .next { s.accessAll (fieldRMW i (.wl (decide (wl = .wl9)))) with
        seqState := .c3bMode }) ∧
    (s.seqState = .c3bMode →
      exec (.configure i wl m p f st) s =
        .next { s.accessAll (fieldRMW i (.mode (decide (m ≠ .rxOnly)) (decide (m ≠ .txOnly)))) with
          seqState := .c3cParity }) ∧
    (s.seqState = .c3cParity →
      exec (.configure i wl m p f st) s =
        .next { s.accessAll (fieldRMW i (.parity (decide (p ≠ .none)) (decide (p = .odd)))) with
          seqState := .c3dFlow }) ∧
    (s.seqState = .c3dFlow →
      exec (.configure i wl m p f st) s =
        .next { s.accessAll (fieldRMW i (.flow (decide (f = .rts ∨ f = .both)) (decide (f = .cts ∨ f = .both))))
          with seqState := .c3eStop }) ∧
    (s.seqState = .c3eStop →
      exec (.configure i wl m p f st) s = .next { s.accessAll (fieldRMW i (.stop st.code)) with
        seqState := .c4aClock })

/-- R54, R115 to R119: the same five steps field by field, where the reset line of the instance is released
(R37, log entry 8). -/
def Obligations.ConfigureFieldsAfterEachStep : Prop :=
  ∀ (s : State) (i : Inst) (wl : WordLen) (m : Mode) (p : Parity) (f : FlowCtl) (st : StopBits),
    s.rst.get i = false →
    (s.seqState = .c3aWl →
      exec (.configure i wl m p f st) s = .next { s with
        u := s.u.set i { s.u.get i with wl := decide (wl = .wl9) }, seqState := .c3bMode }) ∧
    (s.seqState = .c3bMode →
      exec (.configure i wl m p f st) s = .next { s with
        u := s.u.set i { s.u.get i with txen := decide (m ≠ .rxOnly), rxen := decide (m ≠ .txOnly) },
        seqState := .c3cParity }) ∧
    (s.seqState = .c3cParity →
      exec (.configure i wl m p f st) s = .next { s with
        u := s.u.set i { s.u.get i with paren := decide (p ≠ .none), parsel := decide (p = .odd) },
        seqState := .c3dFlow }) ∧
    (s.seqState = .c3dFlow →
      exec (.configure i wl m p f st) s = .next { s with
        u := s.u.set i { s.u.get i with
          rtsen := decide (f = .rts ∨ f = .both), ctsen := decide (f = .cts ∨ f = .both) },
        seqState := .c3eStop }) ∧
    (s.seqState = .c3eStop →
      exec (.configure i wl m p f st) s = .next { s with
        u := s.u.set i { s.u.get i with stop := st.code }, seqState := .c4aClock })

/-- R120: step C4A on the lookup's answer. The counter of queries is the model's own (log entry 1). -/
def Obligations.ConfigureClockStep : Prop :=
  ∀ (s : State) (i : Inst) (wl : WordLen) (m : Mode) (p : Parity) (f : FlowCtl) (st : StopBits),
    s.seqState = .c4aClock →
    (s.clockAnswer (Config.bus i) = none →
      exec (.configure i wl m p f st) s = .next { s with
        queries := s.queries + 1, status := ⟨false, true, 2⟩, seqState := .idle }) ∧
    (∀ hz, s.clockAnswer (Config.bus i) = some hz →
      exec (.configure i wl m p f st) s = .next { s with
        queries := s.queries + 1, opClk := hz, seqState := .c4bDivide })

/-- R121, R122: step C4B: the Configuration invariant first, then the divisor. The boundary 4096 is `2^MANT_W`
with `MANT_W` fixed at the spec's default 12 (R8), the model's choice, log entry 4. -/
def Obligations.ConfigureDivideStep : Prop :=
  ∀ (s : State) (i : Inst) (wl : WordLen) (m : Mode) (p : Parity) (f : FlowCtl) (st : StopBits) (D : Nat),
    s.seqState = .c4bDivide →
    D = (2 * s.opClk.toNat + s.opBaud.toNat) / (2 * s.opBaud.toNat) →
    (s.opBaud.toNat = 0 ∨ s.opClk.toNat < 2 * s.opBaud.toNat ∨ 4096 ≤ D / 16 →
      exec (.configure i wl m p f st) s = .next { s with status := ⟨false, true, 3⟩, seqState := .idle }) ∧
    (s.opBaud.toNat ≠ 0 ∧ 2 * s.opBaud.toNat ≤ s.opClk.toNat ∧ D / 16 < 4096 →
      2 ≤ D ∧ ∃ t, exec (.configure i wl m p f st) s = .next t ∧
        t.resMant.toNat = D / 16 ∧ t.resFrac.toNat = D % 16 ∧
        t = { s with resMant := t.resMant, resFrac := t.resFrac, seqState := .c4cBaudreg })

/-- R123, R124: the baud-rate register overwritten whole with mantissa and fraction, then the enable, which
ends the command; then both field by field, where the reset line is released (R37, log entry 8). -/
def Obligations.ConfigureBaudregThenEnable : Prop :=
  ∀ (s : State) (i : Inst) (wl : WordLen) (m : Mode) (p : Parity) (f : FlowCtl) (st : StopBits),
    (s.seqState = .c4cBaudreg →
      exec (.configure i wl m p f st) s =
        .next { s.accessAll (regOverwrite i (BitVec.ofNat 32 (16 * s.resMant.toNat + s.resFrac.toNat))) with
          seqState := .c5Enable }) ∧
    (s.seqState = .c5Enable →
      exec (.configure i wl m p f st) s = .next { s.accessAll (fieldRMW i (.en true)) with
        status := ⟨false, true, 0⟩, seqState := .idle }) ∧
    (s.seqState = .c4cBaudreg → s.rst.get i = false →
      exec (.configure i wl m p f st) s = .next { s with
        u := s.u.set i { s.u.get i with
          baudreg := BitVec.ofNat 32 (16 * s.resMant.toNat + s.resFrac.toNat) },
        seqState := .c5Enable }) ∧
    (s.seqState = .c5Enable → s.rst.get i = false →
      exec (.configure i wl m p f st) s = .next { s with
        u := s.u.set i { s.u.get i with en := true },
        status := ⟨false, true, 0⟩, seqState := .idle })

/-- R37 and log entry 8 (the model's reading): while the environment holds the reset line of the instance,
CONFIGURE's register steps complete and leave `U[i]` as it is held. -/
def Obligations.ConfigureOfAHeldInstance : Prop :=
  ∀ (s : State) (i : Inst) (wl : WordLen) (m : Mode) (p : Parity) (f : FlowCtl) (st : StopBits),
    s.rst.get i = true → s.seqState.afterDisable = true ∨ s.seqState = .c2Disable →
    s.seqState ≠ .c4aClock → s.seqState ≠ .c4bDivide →
    ∃ t, exec (.configure i wl m p f st) s = .next t ∧ t.u = s.u ∧ t.gate = s.gate ∧ t.rst = s.rst ∧
      (t.seqState.code.toNat = s.seqState.code.toNat + 1 ∨
        s.seqState = .c5Enable ∧ t.seqState = .idle ∧ t.status = ⟨false, true, 0⟩)

/-- R126: a successful CONFIGURE, from the host's write to the last of its eleven steps. `divcalc 12` is DIVCALC
with `MANT_W` at the spec's default 12 (R8, log entry 4). -/
def Obligations.ConfigureCommandEffect : Prop :=
  ∀ (s : State) (i : Inst) (wl : WordLen) (m : Mode) (p : Parity) (f : FlowCtl) (st : StopBits)
    (hz : Word) (mant frac : Nat),
    s.agenda = [issueEvent (.configure i wl m p f st)] → s.status.busy = false →
    s.callerReady (.configure i wl m p f st) = true → s.rst.get i = false →
    s.clockAnswer (Config.bus i) = some hz → 1 ≤ s.opBaud.toNat → 2 * s.opBaud.toNat ≤ hz.toNat →
    divcalc 12 hz.toNat s.opBaud.toNat = .ok mant frac →
    ∃ t, runFor 12 s = .next t ∧
      t.gate.get i = true ∧
      t.u.get i =
        { en := true
          wl := decide (wl = .wl9)
          txen := decide (m ≠ .rxOnly)
          rxen := decide (m ≠ .txOnly)
          paren := decide (p ≠ .none)
          parsel := decide (p = .odd)
          rtsen := decide (f = .rts ∨ f = .both)
          ctsen := decide (f = .cts ∨ f = .both)
          stop := st.code
          baudreg := BitVec.ofNat 32 (16 * mant + frac)
          other := (s.u.get i).other } ∧
      t.rst = s.rst ∧ t.opClk = hz ∧ t.resMant.toNat = mant ∧ t.resFrac.toNat = frac ∧
      t.status = ⟨false, true, 0⟩ ∧ t.seqState = .idle ∧
      t.cmd = encode (.configure i wl m p f st) ∧ t.opBaud = s.opBaud ∧ t.env = s.env ∧
      ∀ j, j ≠ i → t.u.get j = s.u.get j ∧ t.gate.get j = s.gate.get j

/-- R128: a failed CONFIGURE, by CLOCK_UNAVAILABLE in C4A or by BAUD_OUT_OF_RANGE in C4B: steps C1 to C3E have
taken effect, the rest has not. `divcalc 12` is DIVCALC with `MANT_W` at the spec's default 12 (R8, log
entry 4). -/
def Obligations.ConfigureFailureEffect : Prop :=
  ∀ (s : State) (i : Inst) (wl : WordLen) (m : Mode) (p : Parity) (f : FlowCtl) (st : StopBits),
    s.agenda = [issueEvent (.configure i wl m p f st)] → s.status.busy = false →
    s.callerReady (.configure i wl m p f st) = true → s.rst.get i = false →
    ∀ (n : Nat) (clk : Word) (code : BitVec 3),
      (s.clockAnswer (Config.bus i) = none ∧ n = 9 ∧ clk = s.opClk ∧ code = 2) ∨
      (s.clockAnswer (Config.bus i) = some clk ∧ n = 10 ∧ code = 3 ∧
        (s.opBaud.toNat = 0 ∨ clk.toNat < 2 * s.opBaud.toNat ∨
          divcalc 12 clk.toNat s.opBaud.toNat = .invalidBaudRate)) →
      ∃ t, runFor n s = .next t ∧
        t.gate.get i = true ∧
        t.u.get i = { s.u.get i with
          en := false
          wl := decide (wl = .wl9)
          txen := decide (m ≠ .rxOnly)
          rxen := decide (m ≠ .txOnly)
          paren := decide (p ≠ .none)
          parsel := decide (p = .odd)
          rtsen := decide (f = .rts ∨ f = .both)
          ctsen := decide (f = .cts ∨ f = .both)
          stop := st.code } ∧
        t.resMant = s.resMant ∧ t.resFrac = s.resFrac ∧ t.opClk = clk ∧
        t.status = ⟨false, true, code⟩ ∧ t.seqState = .idle ∧ t.opBaud = s.opBaud ∧ t.rst = s.rst ∧
        t.env = s.env ∧ ∀ j, j ≠ i → t.u.get j = s.u.get j ∧ t.gate.get j = s.gate.get j

/-- R125: the accesses of a CONFIGURE that succeeds, and of one that fails: the same list cut off after the
oracle query. Which is which (R94, R122) is told by `divcalc 12`, DIVCALC with `MANT_W` fixed at the spec's
default 12 (R8), the model's choice, log entry 4. -/
def Obligations.ConfigureAccessList : Prop :=
  ∀ (s : State) (i : Inst) (wl : WordLen) (m : Mode) (p : Parity) (f : FlowCtl) (st : StopBits)
    (head : List Access),
    head =
      [.gate i true, .read i .en, .write i (.en false),
       .read i .wl, .write i (.wl (decide (wl = .wl9))),
       .read i .mode, .write i (.mode (decide (m ≠ .rxOnly)) (decide (m ≠ .txOnly))),
       .read i .parity, .write i (.parity (decide (p ≠ .none)) (decide (p = .odd))),
       .read i .flow,
       .write i (.flow (decide (f = .rts ∨ f = .both)) (decide (f = .cts ∨ f = .both))),
       .read i .stop, .write i (.stop st.code), .query (Config.bus i)] →
    (∀ (hz : Word) (mant frac : Nat), s.clockAnswer (Config.bus i) = some hz → 1 ≤ s.opBaud.toNat →
      2 * s.opBaud.toNat ≤ hz.toNat → divcalc 12 hz.toNat s.opBaud.toNat = .ok mant frac →
      State.accessTrace 11 (s.issue (encode (.configure i wl m p f st))) =
        head ++ [.write i (.baudreg (BitVec.ofNat 32 (16 * mant + frac))), .read i .en,
          .write i (.en true)]) ∧
    (s.clockAnswer (Config.bus i) = none ∨
      (∃ hz, s.clockAnswer (Config.bus i) = some hz ∧
        (s.opBaud.toNat = 0 ∨ hz.toNat < 2 * s.opBaud.toNat ∨
          divcalc 12 hz.toNat s.opBaud.toNat = .invalidBaudRate)) →
      State.accessTrace 11 (s.issue (encode (.configure i wl m p f st))) = head)

/-- R127: a second successful CONFIGURE with the same configuration and the same oracle answer leaves the same
state as one (but for the model's own counter of queries, log entry 1). -/
def Obligations.ConfigureTwiceIsOnce : Prop :=
  ∀ (s t : State) (c : Instr) (i : Inst) (wl : WordLen) (m : Mode) (p : Parity) (f : FlowCtl) (st : StopBits),
    c = .configure i wl m p f st → s.agenda = [issueEvent c] → s.status.busy = false →
    s.callerReady c = true → runFor 12 s = .next t → t.status = ⟨false, true, 0⟩ →
    t.clockAnswer (Config.bus i) = s.clockAnswer (Config.bus i) →
    runFor 12 { t with agenda := [issueEvent c] } = .next { t with queries := t.queries + 1 }

/-- R42, R110 and the single steps' rules: CONFIGURE's frame. -/
def Obligations.ConfigureFrame : Prop :=
  ∀ (s t : State) (i : Inst) (wl : WordLen) (m : Mode) (p : Parity) (f : FlowCtl) (st : StopBits),
    exec (.configure i wl m p f st) s = .next t →
    t.cmd = s.cmd ∧ t.opBaud = s.opBaud ∧ t.rst = s.rst ∧ t.clkA = s.clkA ∧ t.clkB = s.clkB ∧
      t.env = s.env ∧ t.agenda = s.agenda ∧ (t.u.get i).other = (s.u.get i).other ∧
      (∀ j, j ≠ i → t.u.get j = s.u.get j ∧ t.gate.get j = s.gate.get j) ∧
      (s.seqState ≠ .c1GateOn → t.gate = s.gate) ∧
      (s.seqState ≠ .c4aClock → t.opClk = s.opClk ∧ t.queries = s.queries) ∧
      (s.seqState ≠ .c4bDivide → t.resMant = s.resMant ∧ t.resFrac = s.resFrac) ∧
      (s.seqState ≠ .c4cBaudreg → (t.u.get i).baudreg = (s.u.get i).baudreg) ∧
      (s.seqState ≠ .c2Disable → s.seqState ≠ .c5Enable → (t.u.get i).en = (s.u.get i).en) ∧
      (s.seqState ≠ .c3aWl → (t.u.get i).wl = (s.u.get i).wl) ∧
      (s.seqState ≠ .c3bMode →
        (t.u.get i).txen = (s.u.get i).txen ∧ (t.u.get i).rxen = (s.u.get i).rxen) ∧
      (s.seqState ≠ .c3cParity →
        (t.u.get i).paren = (s.u.get i).paren ∧ (t.u.get i).parsel = (s.u.get i).parsel) ∧
      (s.seqState ≠ .c3dFlow →
        (t.u.get i).rtsen = (s.u.get i).rtsen ∧ (t.u.get i).ctsen = (s.u.get i).ctsen) ∧
      (s.seqState ≠ .c3eStop → (t.u.get i).stop = (s.u.get i).stop) ∧
      (s.seqState ≠ .idle → t.seqState ≠ .idle → t.status = s.status)

/-! ## DECONFIGURE (42_deconfigure.md) -/

/-- R141, R142, R143: the three steps. -/
def Obligations.DeconfigureSteps : Prop :=
  ∀ (s : State) (i : Inst),
    (s.seqState = .x1RstAssert →
      exec (.deconfigure i) s = .next { s with
        rst := s.rst.set i true, u := s.u.set i usartReset, seqState := .x2RstRelease }) ∧
    (s.seqState = .x2RstRelease →
      exec (.deconfigure i) s = .next { s with rst := s.rst.set i false, seqState := .x3GateOff }) ∧
    (s.seqState = .x3GateOff →
      exec (.deconfigure i) s = .next { s with
        gate := s.gate.set i false, status := ⟨false, true, 0⟩, seqState := .idle })

/-- R144: the whole of a DECONFIGURE, and its three accesses. -/
def Obligations.DeconfigureCommandEffect : Prop :=
  ∀ (s : State) (i : Inst),
    s.agenda = [issueEvent (.deconfigure i)] → s.status.busy = false →
    s.callerReady (.deconfigure i) = true →
    State.accessTrace 3 (s.issue (encode (.deconfigure i))) =
      [.reset i true, .reset i false, .gate i false] ∧
    ∃ t, runFor 4 s = .next t ∧ t.u.get i = usartReset ∧ t.rst.get i = false ∧ t.gate.get i = false ∧
      t.status = ⟨false, true, 0⟩ ∧ t.seqState = .idle ∧ t.opClk = s.opClk ∧ t.opBaud = s.opBaud ∧
      t.resMant = s.resMant ∧ t.resFrac = s.resFrac ∧ t.cmd = encode (.deconfigure i) ∧ t.env = s.env ∧
      ∀ j, j ≠ i → t.u.get j = s.u.get j ∧ t.gate.get j = s.gate.get j ∧ t.rst.get j = s.rst.get j

/-- R145: (a) two DECONFIGUREs in a row leave the same state as one; (b) CONFIGURE, successful or failed, then
DECONFIGURE, leaves the gate off and the instance in its reset state, and the interrupt controller as before. -/
def Obligations.DeconfigureRoundTrip : Prop :=
  ∀ (s : State) (i : Inst), s.status.busy = false → s.callerReady (.deconfigure i) = true →
    (∀ t, s.agenda = [issueEvent (.deconfigure i)] → runFor 4 s = .next t →
      runFor 4 { t with agenda := [issueEvent (.deconfigure i)] } = .next t) ∧
    (∀ (wl : WordLen) (m : Mode) (p : Parity) (f : FlowCtl) (st : StopBits),
      s.agenda = issueEvent (.configure i wl m p f st) :: List.replicate 11 .seq ++
        [issueEvent (.deconfigure i)] →
      ∃ t, runFor 16 s = .next t ∧ t.seqState = .idle ∧ t.gate.get i = false ∧ t.rst.get i = false ∧
        t.u.get i = usartReset ∧ t.env = s.env)

/-- R42, R140: DECONFIGURE's frame. -/
def Obligations.DeconfigureFrame : Prop :=
  ∀ (s t : State) (i : Inst), exec (.deconfigure i) s = .next t →
    t.cmd = s.cmd ∧ t.opClk = s.opClk ∧ t.opBaud = s.opBaud ∧ t.resMant = s.resMant ∧
      t.resFrac = s.resFrac ∧ t.clkA = s.clkA ∧ t.clkB = s.clkB ∧ t.queries = s.queries ∧
      t.env = s.env ∧ t.agenda = s.agenda ∧
      (∀ j, j ≠ i → t.u.get j = s.u.get j ∧ t.gate.get j = s.gate.get j ∧ t.rst.get j = s.rst.get j) ∧
      (s.seqState ≠ .x1RstAssert → t.u = s.u) ∧
      (s.seqState ≠ .x1RstAssert → s.seqState ≠ .x2RstRelease → t.rst = s.rst) ∧
      (s.seqState ≠ .x3GateOff → t.gate = s.gate) ∧
      (s.seqState ≠ .idle → t.seqState ≠ .idle → t.status = s.status)

/-! ## Errors, invariants and reset (60_exceptions.md, 10_state.md, 70_reset_and_hazards.md) -/

/-- R151: which command ends with which code, that a refused word ends with 4 only, and that `CMD` and the
operands still hold the command. -/
def Obligations.CommandsEndWithTheirCodes : Prop :=
  (∀ (s : State) (w : CmdWord) (r : Reject), decode w = .error r →
    (s.issue w).status.err = 4 ∧ (s.issue w).cmd = w ∧ (s.issue w).opClk = s.opClk ∧
      (s.issue w).opBaud = s.opBaud) ∧
  ∀ (i : Instr) (s t : State), s.seqState ≠ .idle → exec i s = .next t → t.seqState = .idle →
    t.status.busy = false ∧ t.status.done = true ∧ t.cmd = s.cmd ∧ t.opBaud = s.opBaud ∧
      (i = .compute → (t.status.err = 0 ∨ t.status.err = 1) ∧ t.opClk = s.opClk) ∧
      (∀ k wl m p f st, i = .configure k wl m p f st →
        t.status.err = 0 ∨ t.status.err = 2 ∨ t.status.err = 3) ∧
      (∀ k, i = .deconfigure k → t.status.err = 0)

/-- R41 and the invariants of `StateInv`, kept by every step of every agent, from every state that meets them. -/
def Obligations.StepKeepsInv : Prop :=
  ∀ s t : State, StateInv s → step s = .next t → StateInv t

/-- The state after reset meets the invariant (R39). -/
def Obligations.ResetMeetsInv : Prop := StateInv State.reset ∧ ResetOnlyInPulse State.reset

/-- R41: "`RST[i] = 1` only while `SEQ_STATE = X2_RST_RELEASE` with `CMD.INST = i`, provided the environment
never writes `RST[i]`". -/
def Obligations.ResetLineOnlyInPulse : Prop :=
  ∀ s t : State, StateInv s → ResetOnlyInPulse s → s.noResetWriteNext → step s = .next t → ResetOnlyInPulse t

/-- R156: SEQ is never stuck, and a command in progress ends within 11 steps of SEQ. -/
def Obligations.EveryCommandEnds : Prop :=
  ∀ s : State, StateInv s → s.agenda = [] → s.seqState ≠ .idle →
    (∃ t, s.seqTurn = .next t) ∧
      ∃ n t, n ≤ 11 ∧ runFor n s = .next t ∧ t.seqState = .idle ∧ t.status.busy = false ∧
        t.status.done = true

/-- R190: the power-on reset, whatever was in progress. -/
def Obligations.PowerOnResets : Prop :=
  ∀ (s : State) (rest : List Event), s.agenda = .powerOn :: rest →
    ∃ t, step s = .next t ∧ t.cmd = 0 ∧ t.opClk = 0 ∧ t.opBaud = 0 ∧ t.resMant = 0 ∧ t.resFrac = 0 ∧
      t.status.word = 0 ∧ t.seqState = .idle ∧
      ∀ i, t.u.get i = usartReset ∧ t.gate.get i = false ∧ t.rst.get i = false

/-! ## The environment (70_reset_and_hazards.md R198, 60_exceptions.md part 3) -/

/-- R198, R156: while a command works on an instance, a write of its fields, gate or reset line, a start, a
blocking call, and an event or a poll that meets a transfer in progress are faults of the run; so is the host's
issue of a command on an instance with a transfer in progress. An event that meets no transfer in progress, or a
disabled instance, breaks nothing and does nothing, whatever command works there. That the moves of a transfer,
and the issue, are breaking steps is the model's reading (log entry 10). -/
def Obligations.BreakingExclusivityFaults : Prop :=
  (∀ (s : State) (i : Inst) (a : EnvAction) (rest : List Event),
    s.agenda = .env a :: rest → s.workingOn = some i →
    ((∃ v, a = .writeField i v) ∨ (∃ b, a = .writeGate i b) ∨ (∃ b, a = .writeReset i b) ∨
      (∃ d buf, a = .start i d buf) ∨ (∃ d buf n, a = .block i d buf n) ∨
      (∃ fl rx h, a = .irq i fl rx ∧ (s.u.get i).en = true ∧ s.env.handles.get i = some h ∧
        h.xfer.status.inProgress = true) ∨
      (∃ r rx b, a = .poll i r rx ∧ s.env.blocking.get i = some b ∧ b.xfer.status.inProgress = true)) →
    step s = .fault (.exclusivity i)) ∧
  (∀ (s : State) (i : Inst) (fl : ErrorFlags) (rx : Byte) (rest : List Event),
    s.agenda = .env (.irq i fl rx) :: rest →
    (s.u.get i).en = false ∨
      (fl = ⟨false, false, false⟩ ∧ ∀ h, s.env.handles.get i = some h → h.xfer.status.inProgress = false) →
    step s = .next { s with agenda := rest }) ∧
  (∀ (s : State) (c : Instr) (i : Inst) (rest : List Event),
    s.agenda = issueEvent c :: rest → instrInst c = some i → s.status.busy = false →
    s.env.transferOn i = true → step s = .fault (.transferActive i))

/-- R111: "Other instances `j ≠ i` may be used freely meanwhile": any move of the environment on another instance
(a register write, a move of a transfer or of its Handle) and SEQ's step can change places. -/
def Obligations.OtherInstancesMayBeUsedMeanwhile : Prop :=
  ∀ (s : State) (i j : Inst) (a : EnvAction) (t u : State),
    StateInv s → s.workingOn = some i → j ≠ i →
    ((∃ v, a = .writeField j v) ∨ (∃ b, a = .writeGate j b) ∨ (∃ b, a = .writeReset j b) ∨
      (∃ d buf, a = .start j d buf) ∨ (∃ fl rx, a = .irq j fl rx) ∨ (∃ d buf n, a = .block j d buf n) ∨
      (∃ r rx, a = .poll j r rx) ∨ (∃ c, a = .bindHandle j c) ∨ a = .destroyHandle j ∨ a = .clear j) →
    s.envMove a = .next t → s.seqTurn = .next u →
    ∃ r, t.seqTurn = .next r ∧ u.envMove a = .next r ∧ r.u.get i = u.u.get i ∧ r.gate.get i = u.gate.get i ∧
      r.rst.get i = u.rst.get i

/-- R20, R21: the environment writes no register of the block. -/
def Obligations.EnvironmentLeavesTheBlock : Prop :=
  ∀ (s t : State) (a : EnvAction), s.envMove a = .next t →
    t.cmd = s.cmd ∧ t.opClk = s.opClk ∧ t.opBaud = s.opBaud ∧ t.resMant = s.resMant ∧
      t.resFrac = s.resFrac ∧ t.status = s.status ∧ t.seqState = s.seqState ∧ t.agenda = s.agenda

/-- 91_not_in_source.md N9, U15: an environment write to an instance whose clock gate is off has no meaning. -/
def Obligations.UnclockedWriteIsRefused : Prop :=
  ∀ (s : State) (i : Inst) (v : FieldVal) (rest : List Event),
    s.agenda = .env (.writeField i v) :: rest → s.workingOn ≠ some i → s.gate.get i = false →
    step s = .refused (.unclockedInstance i)

/-- R161: `set_enabled` writes one bit of one enable word, and a line that is not there fails fast (R163).
The bound 96 is `N_LINES` fixed at the spec's default (R8), log entry 4. -/
def Obligations.SetEnabledWritesOneBit : Prop :=
  ∀ (s : State) (line : Nat) (b : Bool),
    (line < 96 →
      ∃ t, s.envMove (.setEnabled line b) = .next t ∧ t = { s with env := { s.env with ien := t.env.ien } } ∧
        ∀ other, other < 96 →
          (t.env.ien.getD (other / 32) 0).getLsbD (other % 32) =
            if other = line then b else (s.env.ien.getD (other / 32) 0).getLsbD (other % 32)) ∧
    (96 ≤ line → s.envMove (.setEnabled line b) = .fault (.lineOutOfRange line))

/-- R162, R163: `set_priority` replaces one priority byte, the priority in its top `PRIO_BITS` bits; a line or a
priority out of range fails fast. The factor 16 and the bound 16 are `PRIO_BITS` fixed at the spec's default 4
(R8), the model's choice, log entry 4. -/
def Obligations.SetPriorityWritesOneByte : Prop :=
  ∀ (s : State) (line priority : Nat),
    (line < 96 → priority < 16 →
      ∃ t, s.envMove (.setPriority line priority) = .next t ∧
        t = { s with env := { s.env with ipr := t.env.ipr } } ∧
        ∀ other, other < 96 →
          (t.env.ipr.getD (other / 4) 0).toNat / 2 ^ (8 * (other % 4)) % 256 =
            if other = line then 16 * priority
            else (s.env.ipr.getD (other / 4) 0).toNat / 2 ^ (8 * (other % 4)) % 256) ∧
    (96 ≤ line → s.envMove (.setPriority line priority) = .fault (.lineOutOfRange line)) ∧
    (line < 96 → 16 ≤ priority → s.envMove (.setPriority line priority) = .fault (.priorityTooWide priority))

/-- R166, R171: a start while a transfer is in progress fails with `Busy` and does not alter it. -/
def Obligations.StartWhileSendingIsBusy : Prop :=
  ∀ (s : State) (i : Inst) (h : Handle) (d : Direction) (buf : List Byte),
    s.env.handles.get i = some h → h.xfer.status = .sending ∨ h.xfer.status = .receiving →
    s.workingOn ≠ some i →
    s.envMove (.start i d buf) = .next { s with env := { s.env with answer := some .busy } }

/-- R166: a start from Idle, Complete or Error arms the notification of its direction and begins at cursor 0. That
`EN` and `GATE` of the instance do not matter is the model's choice (R204, log entry 23). -/
def Obligations.StartBeginsATransfer : Prop :=
  ∀ (s : State) (i : Inst) (h : Handle) (d : Direction) (buf : List Byte),
    s.env.handles.get i = some h → h.xfer.status = .idle ∨ h.xfer.status = .complete ∨ h.xfer.status = .error →
    s.env.transferOn i = false → (s.u.get i).wl = false → s.workingOn ≠ some i →
    ∃ t, s.envMove (.start i d buf) = .next t ∧ t = { s with env := t.env } ∧ t.env.answer = none ∧
      (d = .send → t.env.handles.get i = some { h with xfer := ⟨.sending, buf, 0⟩ } ∧
        t.env.txArmed.get i = true ∧ t.env.rxArmed = s.env.rxArmed) ∧
      (d = .receive → t.env.handles.get i = some { h with xfer := ⟨.receiving, buf, 0⟩ } ∧
        t.env.rxArmed.get i = true ∧ t.env.txArmed = s.env.txArmed)

/-- R169: one poll of a blocking send on a clocked instance: a byte when the flag of the enabled instance is set
(a disabled one never sets it, see DisabledInstanceWaits); else nothing if there is no bound, one poll
fewer if there is one, and `Timeout` when it is used up (log entry 19). `TXEN` does not matter, the model's
choice (log entry 28). -/
def Obligations.BlockingSendPolls : Prop :=
  ∀ (s : State) (i : Inst) (b : Blocking) (rx byte : Byte) (rest : List Byte),
    s.env.blocking.get i = some b → b.xfer.status = .sending → b.xfer.buf.drop b.xfer.cursor = byte :: rest →
    (s.u.get i).wl = false → s.gate.get i = true → s.workingOn ≠ some i →
    ((s.u.get i).en = true → ∃ t, s.envMove (.poll i true rx) = .next t ∧
      t.env.sent.get i = s.env.sent.get i ++ [byte] ∧
      t.env.blocking.get i = some { b with xfer :=
        ⟨if rest = [] then .complete else .sending, b.xfer.buf, b.xfer.cursor + 1⟩ }) ∧
    (b.bound = none → s.envMove (.poll i false rx) = .next s) ∧
    (∀ n, b.bound = some (n + 1) →
      ∃ t, s.envMove (.poll i false rx) = .next t ∧
        t.env.blocking.get i = some { b with bound := some n } ∧ t.env.sent = s.env.sent) ∧
    (b.bound = some 0 →
      ∃ t, s.envMove (.poll i false rx) = .next t ∧ t.env.answer = some .timeout ∧
        t.env.blocking.get i = some { b with xfer := { b.xfer with status := .error } } ∧
        t.env.sent = s.env.sent)

/-- R167, R171: a transfer of `n + 1` bytes takes that many interrupt events, writes exactly its bytes in order
to the data register, and ends with one Completion event, the notification disarmed. `TXEN` does not matter, the
model's choice (log entry 28). -/
def Obligations.SendWritesEveryByteInOrder : Prop :=
  ∀ (s : State) (i : Inst) (h : Handle) (buf : List Byte) (rx : Byte),
    buf ≠ [] → s.seqState = .idle → s.env.handles.get i = some h → h.xfer.status.inProgress = false →
    s.env.transferOn i = false → (s.u.get i).wl = false → (s.u.get i).en = true → s.gate.get i = true →
    s.agenda = .env (.start i .send buf) ::
      List.replicate buf.length (.env (.irq i ⟨false, false, false⟩ rx)) →
    ∃ t, runFor (buf.length + 1) s = .next t ∧
      t.env.sent.get i = s.env.sent.get i ++ buf ∧
      t.env.notified = s.env.notified ++ [(i, .completion)] ∧ t.env.txArmed.get i = false ∧
      t.env.handles.get i = some { h with xfer := ⟨.complete, buf, buf.length⟩ } ∧
      t = { s with agenda := [], env := t.env }

/-- R168, R171: an error flag during a receive aborts it at its cursor before any progress: Error, the bytes
before the cursor untouched, the kind notified one of the flags that are set. The instance is enabled and
clocked (R200, log entries 25 and 11); the mode bits do not matter, the model's choice (log entry 28). -/
def Obligations.ErrorFlagAbortsTheReceive : Prop :=
  ∀ (s : State) (i : Inst) (h : Handle) (fl : ErrorFlags) (rx : Byte),
    s.workingOn ≠ some i → s.env.handles.get i = some h → h.xfer.status = .receiving →
    (s.u.get i).wl = false → (s.u.get i).en = true → s.gate.get i = true →
    fl.overrun = true ∨ fl.framing = true ∨ fl.parity = true →
    ∃ t h' k, s.envMove (.irq i fl rx) = .next t ∧ t.env.handles.get i = some h' ∧ h'.cfg = h.cfg ∧
      h'.xfer.status = .error ∧ h'.xfer.cursor = h.xfer.cursor ∧
      h'.xfer.buf.length = h.xfer.buf.length ∧
      h'.xfer.buf.take h.xfer.cursor = h.xfer.buf.take h.xfer.cursor ∧
      t.env.notified = s.env.notified ++ [(i, k)] ∧
      ((k = .overrunError ∧ fl.overrun = true) ∨ (k = .framingError ∧ fl.framing = true) ∨
        (k = .parityError ∧ fl.parity = true))

/-- R168: the same during a send: Error, the cursor and the whole buffer kept, nothing written to the data
register, the kind notified one of the flags that are set; the mode bits as there (log entry 28). -/
def Obligations.ErrorFlagAbortsTheSend : Prop :=
  ∀ (s : State) (i : Inst) (h : Handle) (fl : ErrorFlags) (rx : Byte),
    s.workingOn ≠ some i → s.env.handles.get i = some h → h.xfer.status = .sending →
    (s.u.get i).wl = false → (s.u.get i).en = true → s.gate.get i = true →
    fl.overrun = true ∨ fl.framing = true ∨ fl.parity = true →
    ∃ t k, s.envMove (.irq i fl rx) = .next t ∧
      t.env.handles.get i = some { h with xfer := { h.xfer with status := .error } } ∧
      t.env.sent = s.env.sent ∧ t.env.notified = s.env.notified ++ [(i, k)] ∧
      ((k = .overrunError ∧ fl.overrun = true) ∨ (k = .framingError ∧ fl.framing = true) ∨
        (k = .parityError ∧ fl.parity = true))

/-- R200: a transfer on a disabled instance, as a failed CONFIGURE leaves it, waits "on an instance that never
raises an event": however many events the environment lists for it, nothing happens, and a poll finds no flag
set. That this is so of every disabled instance is the model's reading (log entry 25). -/
def Obligations.DisabledInstanceWaits : Prop :=
  ∀ (s : State) (i : Inst), (s.u.get i).en = false →
    (∀ events : List (ErrorFlags × Byte),
      s.agenda = events.map (fun e => .env (.irq i e.1 e.2)) →
      runFor events.length s = .next { s with agenda := [] }) ∧
    (∀ fl rx, s.envMove (.irq i fl rx) = .next s) ∧
    (∀ rx, s.envMove (.poll i true rx) = s.envMove (.poll i false rx))

/-- Log entry 11 (the model's choice, after 91_not_in_source.md N9 and U15): a transfer's access to the data
register or a flag of an enabled instance whose clock gate is off has no meaning. -/
def Obligations.UnclockedTransferIsRefused : Prop :=
  ∀ (s : State) (i : Inst), s.workingOn ≠ some i → s.gate.get i = false → (s.u.get i).wl = false →
    (∀ h fl rx, (s.u.get i).en = true → s.env.handles.get i = some h → h.xfer.status.inProgress = true →
      s.envMove (.irq i fl rx) = .refused (.unclockedInstance i)) ∧
    (∀ b ready rx, s.env.blocking.get i = some b → b.xfer.status.inProgress = true →
      s.envMove (.poll i ready rx) = .refused (.unclockedInstance i))
end

