-- ==== Sys2Proof/Laws/PerInst.lean ====
section
/-! SUPPORT. Reading one instance's entry after writing one (10_state.md R42). -/

namespace Sys2Proof

@[simp] theorem PerInst.get_set_self {α : Type} (v : PerInst α) (i : Inst) (a : α) :
    (v.set i a).get i = a := by
  simp [PerInst.get, PerInst.set]

@[simp] theorem PerInst.get_set_ne {α : Type} (v : PerInst α) {i j : Inst} (h : i ≠ j) (a : α) :
    (v.set i a).get j = v.get j := by
  have h' : i.val ≠ j.val := fun e => h (Fin.ext e)
  simp [PerInst.get, PerInst.set, Vector.getElem_set_ne, h']

theorem PerInst.get_set {α : Type} (v : PerInst α) (i j : Inst) (a : α) :
    (v.set i a).get j = if i = j then a else v.get j := by
  by_cases h : i = j
  · subst h; simp
  · simp [h]

@[simp] theorem PerInst.get_replicate {α : Type} (a : α) (i : Inst) :
    PerInst.get (Vector.replicate 6 a) i = a := by
  simp [PerInst.get]

/-- Two families with equal entries are equal. -/
theorem PerInst.ext {α : Type} {v w : PerInst α} (h : ∀ i : Inst, v.get i = w.get i) : v = w := by
  apply Vector.ext
  intro k hk
  exact h ⟨k, hk⟩

@[simp] theorem PerInst.set_get_self {α : Type} (v : PerInst α) (i : Inst) : v.set i (v.get i) = v := by
  apply PerInst.ext
  intro j
  by_cases h : i = j
  · subst h; simp
  · simp [h]

@[simp] theorem PerInst.set_set {α : Type} (v : PerInst α) (i : Inst) (a b : α) :
    (v.set i a).set i b = v.set i b := by
  apply PerInst.ext
  intro j
  by_cases h : i = j
  · subst h; simp
  · simp [h]

/-- Writes of two different instances' entries commute. -/
theorem PerInst.set_comm {α : Type} (v : PerInst α) {i j : Inst} (h : i ≠ j) (a b : α) :
    (v.set i a).set j b = (v.set j b).set i a := by
  apply PerInst.ext
  intro k
  simp only [PerInst.get_set]
  by_cases hi : i = k <;> by_cases hj : j = k <;> simp [hi, hj]
  exact absurd (hi.trans hj.symm) h

end Sys2Proof
end

