-- ==== Sys2Proof/Laws/State.lean ====
section
/-! SUPPORT. What each update of the state leaves in each field: one lemma per field and update, so that no
later proof unfolds a record update. -/

namespace Sys2Proof.Machine

@[simp] theorem State.raise_eq_finish (s : State) (e : ErrCode) : s.raise e = s.finish e := rfl

@[simp] theorem State.writeField_cmd (s : State) (i : Inst) (v : FieldVal) : (s.writeField i v).cmd = s.cmd :=
  rfl
@[simp] theorem State.writeField_opClk (s : State) (i : Inst) (v : FieldVal) : (s.writeField i v).opClk = s.opClk :=
  rfl
@[simp] theorem State.writeField_opBaud (s : State) (i : Inst) (v : FieldVal) : (s.writeField i v).opBaud = s.opBaud :=
  rfl
@[simp] theorem State.writeField_resMant (s : State) (i : Inst) (v : FieldVal) : (s.writeField i v).resMant = s.resMant :=
  rfl
@[simp] theorem State.writeField_resFrac (s : State) (i : Inst) (v : FieldVal) : (s.writeField i v).resFrac = s.resFrac :=
  rfl
@[simp] theorem State.writeField_status (s : State) (i : Inst) (v : FieldVal) : (s.writeField i v).status = s.status :=
  rfl
@[simp] theorem State.writeField_seqState (s : State) (i : Inst) (v : FieldVal) : (s.writeField i v).seqState = s.seqState :=
  rfl
theorem State.writeField_u (s : State) (i : Inst) (v : FieldVal) : (s.writeField i v).u = if s.rst.get i then s.u else s.u.set i (v.apply (s.u.get i)) :=
  rfl
@[simp] theorem State.writeField_gate (s : State) (i : Inst) (v : FieldVal) : (s.writeField i v).gate = s.gate :=
  rfl
@[simp] theorem State.writeField_rst (s : State) (i : Inst) (v : FieldVal) : (s.writeField i v).rst = s.rst :=
  rfl
@[simp] theorem State.writeField_clkA (s : State) (i : Inst) (v : FieldVal) : (s.writeField i v).clkA = s.clkA :=
  rfl
@[simp] theorem State.writeField_clkB (s : State) (i : Inst) (v : FieldVal) : (s.writeField i v).clkB = s.clkB :=
  rfl
@[simp] theorem State.writeField_queries (s : State) (i : Inst) (v : FieldVal) : (s.writeField i v).queries = s.queries :=
  rfl
@[simp] theorem State.writeField_env (s : State) (i : Inst) (v : FieldVal) : (s.writeField i v).env = s.env :=
  rfl
@[simp] theorem State.writeField_agenda (s : State) (i : Inst) (v : FieldVal) : (s.writeField i v).agenda = s.agenda :=
  rfl

@[simp] theorem State.gateWrite_cmd (s : State) (i : Inst) (b : Bool) : (s.gateWrite i b).cmd = s.cmd := rfl
@[simp] theorem State.gateWrite_opClk (s : State) (i : Inst) (b : Bool) : (s.gateWrite i b).opClk = s.opClk :=
  rfl
@[simp] theorem State.gateWrite_opBaud (s : State) (i : Inst) (b : Bool) : (s.gateWrite i b).opBaud = s.opBaud :=
  rfl
@[simp] theorem State.gateWrite_resMant (s : State) (i : Inst) (b : Bool) : (s.gateWrite i b).resMant = s.resMant :=
  rfl
@[simp] theorem State.gateWrite_resFrac (s : State) (i : Inst) (b : Bool) : (s.gateWrite i b).resFrac = s.resFrac :=
  rfl
@[simp] theorem State.gateWrite_status (s : State) (i : Inst) (b : Bool) : (s.gateWrite i b).status = s.status :=
  rfl
@[simp] theorem State.gateWrite_seqState (s : State) (i : Inst) (b : Bool) : (s.gateWrite i b).seqState = s.seqState :=
  rfl
@[simp] theorem State.gateWrite_u (s : State) (i : Inst) (b : Bool) : (s.gateWrite i b).u = s.u := rfl
@[simp] theorem State.gateWrite_gate (s : State) (i : Inst) (b : Bool) : (s.gateWrite i b).gate = s.gate.set i b :=
  rfl
@[simp] theorem State.gateWrite_rst (s : State) (i : Inst) (b : Bool) : (s.gateWrite i b).rst = s.rst := rfl
@[simp] theorem State.gateWrite_clkA (s : State) (i : Inst) (b : Bool) : (s.gateWrite i b).clkA = s.clkA :=
  rfl
@[simp] theorem State.gateWrite_clkB (s : State) (i : Inst) (b : Bool) : (s.gateWrite i b).clkB = s.clkB :=
  rfl
@[simp] theorem State.gateWrite_queries (s : State) (i : Inst) (b : Bool) : (s.gateWrite i b).queries = s.queries :=
  rfl
@[simp] theorem State.gateWrite_env (s : State) (i : Inst) (b : Bool) : (s.gateWrite i b).env = s.env := rfl
@[simp] theorem State.gateWrite_agenda (s : State) (i : Inst) (b : Bool) : (s.gateWrite i b).agenda = s.agenda :=
  rfl

@[simp] theorem State.resetWrite_cmd (s : State) (i : Inst) (b : Bool) : (s.resetWrite i b).cmd = s.cmd := rfl
@[simp] theorem State.resetWrite_opClk (s : State) (i : Inst) (b : Bool) : (s.resetWrite i b).opClk = s.opClk :=
  rfl
@[simp] theorem State.resetWrite_opBaud (s : State) (i : Inst) (b : Bool) : (s.resetWrite i b).opBaud = s.opBaud :=
  rfl
@[simp] theorem State.resetWrite_resMant (s : State) (i : Inst) (b : Bool) : (s.resetWrite i b).resMant = s.resMant :=
  rfl
@[simp] theorem State.resetWrite_resFrac (s : State) (i : Inst) (b : Bool) : (s.resetWrite i b).resFrac = s.resFrac :=
  rfl
@[simp] theorem State.resetWrite_status (s : State) (i : Inst) (b : Bool) : (s.resetWrite i b).status = s.status :=
  rfl
@[simp] theorem State.resetWrite_seqState (s : State) (i : Inst) (b : Bool) : (s.resetWrite i b).seqState = s.seqState :=
  rfl
@[simp] theorem State.resetWrite_u (s : State) (i : Inst) (b : Bool) : (s.resetWrite i b).u = if b then s.u.set i usartReset else s.u :=
  rfl
@[simp] theorem State.resetWrite_gate (s : State) (i : Inst) (b : Bool) : (s.resetWrite i b).gate = s.gate :=
  rfl
@[simp] theorem State.resetWrite_rst (s : State) (i : Inst) (b : Bool) : (s.resetWrite i b).rst = s.rst.set i b :=
  rfl
@[simp] theorem State.resetWrite_clkA (s : State) (i : Inst) (b : Bool) : (s.resetWrite i b).clkA = s.clkA :=
  rfl
@[simp] theorem State.resetWrite_clkB (s : State) (i : Inst) (b : Bool) : (s.resetWrite i b).clkB = s.clkB :=
  rfl
@[simp] theorem State.resetWrite_queries (s : State) (i : Inst) (b : Bool) : (s.resetWrite i b).queries = s.queries :=
  rfl
@[simp] theorem State.resetWrite_env (s : State) (i : Inst) (b : Bool) : (s.resetWrite i b).env = s.env := rfl
@[simp] theorem State.resetWrite_agenda (s : State) (i : Inst) (b : Bool) : (s.resetWrite i b).agenda = s.agenda :=
  rfl

@[simp] theorem State.countQuery_cmd (s : State) : (s.countQuery).cmd = s.cmd := rfl
@[simp] theorem State.countQuery_opClk (s : State) : (s.countQuery).opClk = s.opClk := rfl
@[simp] theorem State.countQuery_opBaud (s : State) : (s.countQuery).opBaud = s.opBaud := rfl
@[simp] theorem State.countQuery_resMant (s : State) : (s.countQuery).resMant = s.resMant := rfl
@[simp] theorem State.countQuery_resFrac (s : State) : (s.countQuery).resFrac = s.resFrac := rfl
@[simp] theorem State.countQuery_status (s : State) : (s.countQuery).status = s.status := rfl
@[simp] theorem State.countQuery_seqState (s : State) : (s.countQuery).seqState = s.seqState := rfl
@[simp] theorem State.countQuery_u (s : State) : (s.countQuery).u = s.u := rfl
@[simp] theorem State.countQuery_gate (s : State) : (s.countQuery).gate = s.gate := rfl
@[simp] theorem State.countQuery_rst (s : State) : (s.countQuery).rst = s.rst := rfl
@[simp] theorem State.countQuery_clkA (s : State) : (s.countQuery).clkA = s.clkA := rfl
@[simp] theorem State.countQuery_clkB (s : State) : (s.countQuery).clkB = s.clkB := rfl
@[simp] theorem State.countQuery_queries (s : State) : (s.countQuery).queries = s.queries + 1 := rfl
@[simp] theorem State.countQuery_env (s : State) : (s.countQuery).env = s.env := rfl
@[simp] theorem State.countQuery_agenda (s : State) : (s.countQuery).agenda = s.agenda := rfl

@[simp] theorem State.goto_cmd (s : State) (q : SeqState) : (s.goto q).cmd = s.cmd := rfl
@[simp] theorem State.goto_opClk (s : State) (q : SeqState) : (s.goto q).opClk = s.opClk := rfl
@[simp] theorem State.goto_opBaud (s : State) (q : SeqState) : (s.goto q).opBaud = s.opBaud := rfl
@[simp] theorem State.goto_resMant (s : State) (q : SeqState) : (s.goto q).resMant = s.resMant := rfl
@[simp] theorem State.goto_resFrac (s : State) (q : SeqState) : (s.goto q).resFrac = s.resFrac := rfl
@[simp] theorem State.goto_status (s : State) (q : SeqState) : (s.goto q).status = s.status := rfl
@[simp] theorem State.goto_seqState (s : State) (q : SeqState) : (s.goto q).seqState = q := rfl
@[simp] theorem State.goto_u (s : State) (q : SeqState) : (s.goto q).u = s.u := rfl
@[simp] theorem State.goto_gate (s : State) (q : SeqState) : (s.goto q).gate = s.gate := rfl
@[simp] theorem State.goto_rst (s : State) (q : SeqState) : (s.goto q).rst = s.rst := rfl
@[simp] theorem State.goto_clkA (s : State) (q : SeqState) : (s.goto q).clkA = s.clkA := rfl
@[simp] theorem State.goto_clkB (s : State) (q : SeqState) : (s.goto q).clkB = s.clkB := rfl
@[simp] theorem State.goto_queries (s : State) (q : SeqState) : (s.goto q).queries = s.queries := rfl
@[simp] theorem State.goto_env (s : State) (q : SeqState) : (s.goto q).env = s.env := rfl
@[simp] theorem State.goto_agenda (s : State) (q : SeqState) : (s.goto q).agenda = s.agenda := rfl

@[simp] theorem State.finish_cmd (s : State) (e : ErrCode) : (s.finish e).cmd = s.cmd := rfl
@[simp] theorem State.finish_opClk (s : State) (e : ErrCode) : (s.finish e).opClk = s.opClk := rfl
@[simp] theorem State.finish_opBaud (s : State) (e : ErrCode) : (s.finish e).opBaud = s.opBaud := rfl
@[simp] theorem State.finish_resMant (s : State) (e : ErrCode) : (s.finish e).resMant = s.resMant := rfl
@[simp] theorem State.finish_resFrac (s : State) (e : ErrCode) : (s.finish e).resFrac = s.resFrac := rfl
@[simp] theorem State.finish_status (s : State) (e : ErrCode) : (s.finish e).status = Status.finished e := rfl
@[simp] theorem State.finish_seqState (s : State) (e : ErrCode) : (s.finish e).seqState = .idle := rfl
@[simp] theorem State.finish_u (s : State) (e : ErrCode) : (s.finish e).u = s.u := rfl
@[simp] theorem State.finish_gate (s : State) (e : ErrCode) : (s.finish e).gate = s.gate := rfl
@[simp] theorem State.finish_rst (s : State) (e : ErrCode) : (s.finish e).rst = s.rst := rfl
@[simp] theorem State.finish_clkA (s : State) (e : ErrCode) : (s.finish e).clkA = s.clkA := rfl
@[simp] theorem State.finish_clkB (s : State) (e : ErrCode) : (s.finish e).clkB = s.clkB := rfl
@[simp] theorem State.finish_queries (s : State) (e : ErrCode) : (s.finish e).queries = s.queries := rfl
@[simp] theorem State.finish_env (s : State) (e : ErrCode) : (s.finish e).env = s.env := rfl
@[simp] theorem State.finish_agenda (s : State) (e : ErrCode) : (s.finish e).agenda = s.agenda := rfl

@[simp] theorem State.accept_cmd (s : State) (i : Instr) : (s.accept i).cmd = s.cmd := rfl
@[simp] theorem State.accept_opClk (s : State) (i : Instr) : (s.accept i).opClk = s.opClk := rfl
@[simp] theorem State.accept_opBaud (s : State) (i : Instr) : (s.accept i).opBaud = s.opBaud := rfl
@[simp] theorem State.accept_resMant (s : State) (i : Instr) : (s.accept i).resMant = s.resMant := rfl
@[simp] theorem State.accept_resFrac (s : State) (i : Instr) : (s.accept i).resFrac = s.resFrac := rfl
@[simp] theorem State.accept_status (s : State) (i : Instr) : (s.accept i).status = Status.accepted := rfl
@[simp] theorem State.accept_seqState (s : State) (i : Instr) : (s.accept i).seqState = firstState i := rfl
@[simp] theorem State.accept_u (s : State) (i : Instr) : (s.accept i).u = s.u := rfl
@[simp] theorem State.accept_gate (s : State) (i : Instr) : (s.accept i).gate = s.gate := rfl
@[simp] theorem State.accept_rst (s : State) (i : Instr) : (s.accept i).rst = s.rst := rfl
@[simp] theorem State.accept_clkA (s : State) (i : Instr) : (s.accept i).clkA = s.clkA := rfl
@[simp] theorem State.accept_clkB (s : State) (i : Instr) : (s.accept i).clkB = s.clkB := rfl
@[simp] theorem State.accept_queries (s : State) (i : Instr) : (s.accept i).queries = s.queries := rfl
@[simp] theorem State.accept_env (s : State) (i : Instr) : (s.accept i).env = s.env := rfl
@[simp] theorem State.accept_agenda (s : State) (i : Instr) : (s.accept i).agenda = s.agenda := rfl

@[simp] theorem State.refuseWord_cmd (s : State) : (s.refuseWord).cmd = s.cmd := rfl
@[simp] theorem State.refuseWord_opClk (s : State) : (s.refuseWord).opClk = s.opClk := rfl
@[simp] theorem State.refuseWord_opBaud (s : State) : (s.refuseWord).opBaud = s.opBaud := rfl
@[simp] theorem State.refuseWord_resMant (s : State) : (s.refuseWord).resMant = s.resMant := rfl
@[simp] theorem State.refuseWord_resFrac (s : State) : (s.refuseWord).resFrac = s.resFrac := rfl
@[simp] theorem State.refuseWord_status (s : State) : (s.refuseWord).status = Status.finished .illegalCommand :=
  rfl
@[simp] theorem State.refuseWord_seqState (s : State) : (s.refuseWord).seqState = s.seqState := rfl
@[simp] theorem State.refuseWord_u (s : State) : (s.refuseWord).u = s.u := rfl
@[simp] theorem State.refuseWord_gate (s : State) : (s.refuseWord).gate = s.gate := rfl
@[simp] theorem State.refuseWord_rst (s : State) : (s.refuseWord).rst = s.rst := rfl
@[simp] theorem State.refuseWord_clkA (s : State) : (s.refuseWord).clkA = s.clkA := rfl
@[simp] theorem State.refuseWord_clkB (s : State) : (s.refuseWord).clkB = s.clkB := rfl
@[simp] theorem State.refuseWord_queries (s : State) : (s.refuseWord).queries = s.queries := rfl
@[simp] theorem State.refuseWord_env (s : State) : (s.refuseWord).env = s.env := rfl
@[simp] theorem State.refuseWord_agenda (s : State) : (s.refuseWord).agenda = s.agenda := rfl

@[simp] theorem State.setResult_cmd (s : State) (m f : Nat) : (s.setResult m f).cmd = s.cmd := rfl
@[simp] theorem State.setResult_opClk (s : State) (m f : Nat) : (s.setResult m f).opClk = s.opClk := rfl
@[simp] theorem State.setResult_opBaud (s : State) (m f : Nat) : (s.setResult m f).opBaud = s.opBaud := rfl
@[simp] theorem State.setResult_resMant (s : State) (m f : Nat) : (s.setResult m f).resMant = BitVec.ofNat 12 m :=
  rfl
@[simp] theorem State.setResult_resFrac (s : State) (m f : Nat) : (s.setResult m f).resFrac = BitVec.ofNat 4 f :=
  rfl
@[simp] theorem State.setResult_status (s : State) (m f : Nat) : (s.setResult m f).status = s.status := rfl
@[simp] theorem State.setResult_seqState (s : State) (m f : Nat) : (s.setResult m f).seqState = s.seqState :=
  rfl
@[simp] theorem State.setResult_u (s : State) (m f : Nat) : (s.setResult m f).u = s.u := rfl
@[simp] theorem State.setResult_gate (s : State) (m f : Nat) : (s.setResult m f).gate = s.gate := rfl
@[simp] theorem State.setResult_rst (s : State) (m f : Nat) : (s.setResult m f).rst = s.rst := rfl
@[simp] theorem State.setResult_clkA (s : State) (m f : Nat) : (s.setResult m f).clkA = s.clkA := rfl
@[simp] theorem State.setResult_clkB (s : State) (m f : Nat) : (s.setResult m f).clkB = s.clkB := rfl
@[simp] theorem State.setResult_queries (s : State) (m f : Nat) : (s.setResult m f).queries = s.queries := rfl
@[simp] theorem State.setResult_env (s : State) (m f : Nat) : (s.setResult m f).env = s.env := rfl
@[simp] theorem State.setResult_agenda (s : State) (m f : Nat) : (s.setResult m f).agenda = s.agenda := rfl

@[simp] theorem State.powerOn_cmd (s : State) : (s.powerOn).cmd = State.reset.cmd := rfl
@[simp] theorem State.powerOn_opClk (s : State) : (s.powerOn).opClk = State.reset.opClk := rfl
@[simp] theorem State.powerOn_opBaud (s : State) : (s.powerOn).opBaud = State.reset.opBaud := rfl
@[simp] theorem State.powerOn_resMant (s : State) : (s.powerOn).resMant = State.reset.resMant := rfl
@[simp] theorem State.powerOn_resFrac (s : State) : (s.powerOn).resFrac = State.reset.resFrac := rfl
@[simp] theorem State.powerOn_status (s : State) : (s.powerOn).status = State.reset.status := rfl
@[simp] theorem State.powerOn_seqState (s : State) : (s.powerOn).seqState = State.reset.seqState := rfl
@[simp] theorem State.powerOn_u (s : State) : (s.powerOn).u = State.reset.u := rfl
@[simp] theorem State.powerOn_gate (s : State) : (s.powerOn).gate = State.reset.gate := rfl
@[simp] theorem State.powerOn_rst (s : State) : (s.powerOn).rst = State.reset.rst := rfl
@[simp] theorem State.powerOn_clkA (s : State) : (s.powerOn).clkA = s.clkA := rfl
@[simp] theorem State.powerOn_clkB (s : State) : (s.powerOn).clkB = s.clkB := rfl
@[simp] theorem State.powerOn_queries (s : State) : (s.powerOn).queries = s.queries := rfl
@[simp] theorem State.powerOn_env (s : State) : (s.powerOn).env = s.env := rfl
@[simp] theorem State.powerOn_agenda (s : State) : (s.powerOn).agenda = s.agenda := rfl

end Sys2Proof.Machine
end

