-- ==== Sys2Proof/Laws/Access.lean ====
section
/-! SUPPORT. What the accesses of SEQ can do (20_memory.md R54 to R61): everything an access leaves alone,
said once, and the same for a list of accesses. -/

namespace Sys2Proof.Machine

/-- The instance an access is to, if it is to one. -/
def Access.target : Access → Option Inst
  | .gate i _ => some i
  | .reset i _ => some i
  | .read i _ => some i
  | .write i _ => some i
  | .query _ => none

/-- The fields no access touches: the block's registers, the environment, the moves to come. -/
structure SameBlock (s t : State) : Prop where
  cmd : t.cmd = s.cmd
  opClk : t.opClk = s.opClk
  opBaud : t.opBaud = s.opBaud
  resMant : t.resMant = s.resMant
  resFrac : t.resFrac = s.resFrac
  status : t.status = s.status
  seqState : t.seqState = s.seqState
  clkA : t.clkA = s.clkA
  clkB : t.clkB = s.clkB
  env : t.env = s.env
  agenda : t.agenda = s.agenda

theorem SameBlock.refl (s : State) : SameBlock s s := by constructor <;> rfl

theorem SameBlock.trans {s t r : State} (h : SameBlock s t) (h' : SameBlock t r) : SameBlock s r := by
  constructor
  · exact h'.cmd.trans h.cmd
  · exact h'.opClk.trans h.opClk
  · exact h'.opBaud.trans h.opBaud
  · exact h'.resMant.trans h.resMant
  · exact h'.resFrac.trans h.resFrac
  · exact h'.status.trans h.status
  · exact h'.seqState.trans h.seqState
  · exact h'.clkA.trans h.clkA
  · exact h'.clkB.trans h.clkB
  · exact h'.env.trans h.env
  · exact h'.agenda.trans h.agenda

theorem access_sameBlock (s : State) (a : Access) : SameBlock s (s.access a) := by
  cases a <;> constructor <;> rfl

theorem accessAll_cons (s : State) (a : Access) (l : List Access) :
    s.accessAll (a :: l) = (s.access a).accessAll l := rfl

@[simp] theorem accessAll_nil (s : State) : s.accessAll [] = s := rfl

theorem accessAll_sameBlock (s : State) (l : List Access) : SameBlock s (s.accessAll l) := by
  induction l generalizing s with
  | nil => exact SameBlock.refl s
  | cons a l ih => exact (access_sameBlock s a).trans (ih (s.access a))

/-- An access changes nothing of an instance it is not to (R42, R56, R57). -/
theorem access_other (s : State) (a : Access) (j : Inst) (h : a.target ≠ some j) :
    (s.access a).u.get j = s.u.get j ∧ (s.access a).gate.get j = s.gate.get j ∧
      (s.access a).rst.get j = s.rst.get j := by
  cases a with
  | gate i b =>
    have h' : i ≠ j := fun e => h (congrArg some e)
    simp [State.access, h']
  | reset i b =>
    have h' : i ≠ j := fun e => h (congrArg some e)
    cases b <;> simp [State.access, h']
  | read i f => simp [State.access]
  | write i v =>
    have h' : i ≠ j := fun e => h (congrArg some e)
    refine ⟨?_, rfl, rfl⟩
    simp only [State.access, State.writeField_u]
    split <;> simp [h']
  | query b => simp [State.access]

theorem accessAll_other (s : State) (l : List Access) (j : Inst) (h : ∀ a ∈ l, a.target ≠ some j) :
    (s.accessAll l).u.get j = s.u.get j ∧ (s.accessAll l).gate.get j = s.gate.get j ∧
      (s.accessAll l).rst.get j = s.rst.get j := by
  induction l generalizing s with
  | nil => simp
  | cons a l ih =>
    obtain ⟨hu, hg, hr⟩ := access_other s a j (h a (by simp))
    obtain ⟨iu, ig, ir⟩ := ih (s.access a) (fun b hb => h b (by simp [hb]))
    exact ⟨iu.trans hu, ig.trans hg, ir.trans hr⟩

/-- `FieldRMW` at field level: its write (R54). -/
@[simp] theorem accessAll_fieldRMW (s : State) (i : Inst) (v : FieldVal) :
    s.accessAll (fieldRMW i v) = s.writeField i v := rfl

@[simp] theorem accessAll_regOverwrite (s : State) (i : Inst) (v : Word) :
    s.accessAll (regOverwrite i v) = s.writeField i (.baudreg v) := rfl

@[simp] theorem accessAll_gate (s : State) (i : Inst) (b : Bool) :
    s.accessAll [.gate i b] = s.gateWrite i b := rfl

@[simp] theorem accessAll_reset (s : State) (i : Inst) (b : Bool) :
    s.accessAll [.reset i b] = s.resetWrite i b := rfl

@[simp] theorem accessAll_query (s : State) (b : Bus) : s.accessAll [.query b] = s.countQuery := rfl

/-- A field write to an instance whose reset line is held changes nothing (R37). -/
theorem writeField_held {s : State} {i : Inst} (h : s.rst.get i = true) (v : FieldVal) :
    s.writeField i v = s := by
  simp [State.writeField, h]

/-- A field write to an instance whose reset line is released replaces the field (R54, R55). -/
theorem writeField_free {s : State} {i : Inst} (h : s.rst.get i = false) (v : FieldVal) :
    s.writeField i v = { s with u := s.u.set i (v.apply (s.u.get i)) } := by
  simp [State.writeField, h]

/-- Writing the same value again changes nothing (R61). -/
@[simp] theorem FieldVal.apply_apply (v : FieldVal) (x : Usart) : v.apply (v.apply x) = v.apply x := by
  cases v <;> rfl

/-- What a field write leaves in its own instance: the field replaced, unless the reset line holds it. -/
@[simp] theorem writeField_get_self (s : State) (i : Inst) (v : FieldVal) :
    (s.writeField i v).u.get i = if s.rst.get i then s.u.get i else v.apply (s.u.get i) := by
  simp only [State.writeField_u]
  split <;> simp

@[simp] theorem writeField_get_ne (s : State) {i j : Inst} (h : i ≠ j) (v : FieldVal) :
    (s.writeField i v).u.get j = s.u.get j := by
  simp only [State.writeField_u]
  split <;> simp [h]

end Sys2Proof.Machine
end

