-- ==== Sys2Proof/Laws/Divcalc.lean ====
section
/-! SUPPORT. What DIVCALC can answer (40_divisor.md R91 to R95), and that its result fits its registers (R99). -/

namespace Sys2Proof.Machine

/-- Success says everything: non-zero operands, and the two halves of `D`, both fitting (R92, R94). -/
theorem divcalc_ok {w clk baud m f : Nat} (h : divcalc w clk baud = .ok m f) :
    baud ≠ 0 ∧ clk ≠ 0 ∧ m = divisorD clk baud / 16 ∧ f = divisorD clk baud % 16 ∧ m < 2 ^ w ∧ f < 16 := by
  unfold divcalc at h
  split at h
  · cases h
  · rename_i hz
    split at h
    · cases h
    · rename_i hfit
      cases h
      refine ⟨fun e => hz (Or.inl e), fun e => hz (Or.inr e), rfl, rfl, Nat.lt_of_not_le hfit, ?_⟩
      exact Nat.mod_lt _ (by decide)

/-- Exactly when DIVCALC fails (R94). -/
theorem divcalc_fails_iff (w clk baud : Nat) :
    divcalc w clk baud = .invalidBaudRate ↔ baud = 0 ∨ clk = 0 ∨ 2 ^ w ≤ divisorD clk baud / 16 := by
  unfold divcalc
  split
  · rename_i h
    exact ⟨fun _ => h.elim Or.inl (fun e => Or.inr (Or.inl e)), fun _ => rfl⟩
  · rename_i h
    have hb : baud ≠ 0 := fun e => h (Or.inl e)
    have hc : clk ≠ 0 := fun e => h (Or.inr e)
    split
    · rename_i hfit
      exact ⟨fun _ => Or.inr (Or.inr hfit), fun _ => rfl⟩
    · rename_i hfit
      constructor
      · intro e; cases e
      · rintro (e | e | e)
        · exact absurd e hb
        · exact absurd e hc
        · exact absurd e hfit

/-- The two halves put together are `D` again (R93). -/
theorem divcalc_ok_sum {w clk baud m f : Nat} (h : divcalc w clk baud = .ok m f) :
    16 * m + f = divisorD clk baud := by
  obtain ⟨-, -, rfl, rfl, -, -⟩ := divcalc_ok h
  omega

/-- A result of the block's own width is stored as it stands (R99). -/
theorem setResult_toNat (s : State) {m f : Nat} (hm : m < 4096) (hf : f < 16) :
    (s.setResult m f).resMant.toNat = m ∧ (s.setResult m f).resFrac.toNat = f := by
  constructor
  · simp only [State.setResult_resMant, BitVec.toNat_ofNat]; omega
  · simp only [State.setResult_resFrac, BitVec.toNat_ofNat]; omega

/-- The value step C4C writes is `D` as it stands (R35, R123). -/
theorem baudregOf_toNat (m : BitVec 12) (f : BitVec 4) :
    (baudregOf m f).toNat = 16 * m.toNat + f.toNat := by
  have hf := f.isLt
  have hm := m.isLt
  simp only [baudregOf, BitVec.toNat_setWidth, BitVec.toNat_append, Nat.shiftLeft_eq]
  rw [Nat.mul_comm m.toNat, ← Nat.two_pow_add_eq_or_of_lt hf]
  omega

end Sys2Proof.Machine
end

