-- ==== Sys2Proof/Laws/Commands.lean ====
section
/-! SUPPORT. What each command does in each of its rows (10_state.md R26), one lemma per row; what SEQ's
turn, an issue and a step are. Later proofs cite these and unfold no meaning. -/

namespace Sys2Proof.Machine

/-! ## Fetch, issue, SEQ's turn, a step -/

theorem issue_ok {s : State} {w : CmdWord} {i : Instr} (h : decode w = .ok i) :
    s.issue w = { s with cmd := w }.accept i := by
  simp [State.issue, h]

theorem issue_error {s : State} {w : CmdWord} {r : Reject} (h : decode w = .error r) :
    s.issue w = { s with cmd := w }.refuseWord := by
  simp [State.issue, h]

theorem seqTurn_idle {s : State} (h : s.seqState = .idle) : s.seqTurn = .next s := by
  simp [State.seqTurn, h]

theorem seqTurn_running {s : State} {i : Instr} (h : s.seqState ≠ .idle) (hf : s.fetch = .ok i) :
    s.seqTurn = exec i s := by
  unfold State.seqTurn
  split
  · contradiction
  · simp [hf]

theorem step_nil {s : State} (h : s.agenda = []) : step s = s.seqTurn := by
  simp [step, h]

theorem step_cons {s : State} {e : Event} {rest : List Event} (h : s.agenda = e :: rest) :
    step s = State.move { s with agenda := rest } e := by
  simp [step, h]

theorem workingOn_idle {s : State} (h : s.seqState = .idle) : s.workingOn = none := by
  simp [State.workingOn, h]

theorem workingOn_running {s : State} {i : Instr} (h : s.seqState ≠ .idle) (hf : s.fetch = .ok i) :
    s.workingOn = instrInst i := by
  unfold State.workingOn
  split
  · contradiction
  · simp [hf]

/-! ## COMPUTE -/

theorem execCompute_idle {s : State} (h : s.seqState = .idle) :
    execCompute s = .next (s.accept .compute) := by
  simp [execCompute, h]

theorem execCompute_k1 {s : State} (h : s.seqState = .k1Compute) :
    execCompute s = .next (computeStep s) := by
  simp [execCompute, h]

theorem computeStep_ok {s : State} {m f : Nat} (h : s.divide = .ok m f) :
    computeStep s = (s.setResult m f).finish .none := by
  simp [computeStep, h]

theorem computeStep_fails {s : State} (h : s.divide = .invalidBaudRate) :
    computeStep s = s.finish .invalidBaudRate := by
  simp [computeStep, h]

/-! ## CONFIGURE -/

section Configure

variable {i : Inst} {wl : WordLen} {m : Mode} {p : Parity} {f : FlowCtl} {st : StopBits} {s : State}

theorem execConfigure_idle (h : s.seqState = .idle) :
    execConfigure i wl m p f st s = .next (s.accept (.configure i wl m p f st)) := by
  simp [execConfigure, h]

theorem execConfigure_c1 (h : s.seqState = .c1GateOn) :
    execConfigure i wl m p f st s = .next ((s.gateWrite i true).goto .c2Disable) := by
  simp [execConfigure, configureAccesses, h]

theorem execConfigure_c2 (h : s.seqState = .c2Disable) :
    execConfigure i wl m p f st s = .next ((s.writeField i (.en false)).goto .c3aWl) := by
  simp [execConfigure, configureAccesses, h]

theorem execConfigure_c3a (h : s.seqState = .c3aWl) :
    execConfigure i wl m p f st s = .next ((s.writeField i (wlVal wl)).goto .c3bMode) := by
  simp [execConfigure, configureAccesses, h]

theorem execConfigure_c3b (h : s.seqState = .c3bMode) :
    execConfigure i wl m p f st s = .next ((s.writeField i (modeVal m)).goto .c3cParity) := by
  simp [execConfigure, configureAccesses, h]

theorem execConfigure_c3c (h : s.seqState = .c3cParity) :
    execConfigure i wl m p f st s = .next ((s.writeField i (parityVal p)).goto .c3dFlow) := by
  simp [execConfigure, configureAccesses, h]

theorem execConfigure_c3d (h : s.seqState = .c3dFlow) :
    execConfigure i wl m p f st s = .next ((s.writeField i (flowVal f)).goto .c3eStop) := by
  simp [execConfigure, configureAccesses, h]

theorem execConfigure_c3e (h : s.seqState = .c3eStop) :
    execConfigure i wl m p f st s = .next ((s.writeField i (stopVal st)).goto .c4aClock) := by
  simp [execConfigure, configureAccesses, h]

theorem execConfigure_c4a (h : s.seqState = .c4aClock) :
    execConfigure i wl m p f st s = .next (clockStep (s.clockAnswer (Config.bus i)) s.countQuery) := by
  simp [execConfigure, configureAccesses, h]

theorem execConfigure_c4b (h : s.seqState = .c4bDivide) :
    execConfigure i wl m p f st s = .next (divideStep s) := by
  simp [execConfigure, configureAccesses, h]

theorem execConfigure_c4c (h : s.seqState = .c4cBaudreg) :
    execConfigure i wl m p f st s =
      .next ((s.writeField i (.baudreg (baudregOf s.resMant s.resFrac))).goto .c5Enable) := by
  simp [execConfigure, configureAccesses, h]

theorem execConfigure_c5 (h : s.seqState = .c5Enable) :
    execConfigure i wl m p f st s = .next ((s.writeField i (.en true)).finish .none) := by
  simp [execConfigure, configureAccesses, h]

/-- Every CONFIGURE access is to its own instance, or is the clock query (R110). -/
theorem configureAccesses_target {a : Access} (h : a ∈ configureAccesses i wl m p f st s) :
    a.target = some i ∨ a.target = none := by
  unfold configureAccesses at h
  split at h <;> simp [fieldRMW, regOverwrite] at h
  all_goals first
    | (subst h; simp [Access.target])
    | (rcases h with rfl | rfl <;> simp [Access.target])

end Configure

theorem clockStep_none (s : State) : clockStep none s = s.finish .clockUnavailable := rfl

theorem clockStep_some (hz : Word) (s : State) :
    clockStep (some hz) s = { s with opClk := hz }.goto .c4bDivide := rfl

/-- Step C4B on operands outside the Configuration invariant, or with no divisor that fits (R121, R122). -/
theorem divideStep_fails {s : State}
    (h : s.baudOperand = 0 ∨ s.clkOperand < 2 * s.baudOperand ∨ s.divide = .invalidBaudRate) :
    divideStep s = s.finish .baudOutOfRange := by
  unfold divideStep
  split
  · rfl
  · rename_i hn
    rcases h with h | h | h
    · exact absurd (Or.inl h) hn
    · exact absurd (Or.inr h) hn
    · simp [h]

theorem divideStep_ok {s : State} {m f : Nat} (hb : s.baudOperand ≠ 0)
    (hc : 2 * s.baudOperand ≤ s.clkOperand) (h : s.divide = .ok m f) :
    divideStep s = (s.setResult m f).goto .c4cBaudreg := by
  unfold divideStep
  split
  · rename_i hn
    rcases hn with hn | hn
    · exact absurd hn hb
    · omega
  · simp [h]

/-- Step C4B ends the command or goes on to C4C, and writes nothing but the results and the flags (R121,
R122). -/
theorem divideStep_cases (s : State) :
    divideStep s = s.finish .baudOutOfRange ∨
      ∃ m f, s.divide = .ok m f ∧ divideStep s = (s.setResult m f).goto .c4cBaudreg := by
  unfold divideStep
  split
  · exact Or.inl rfl
  · cases h : s.divide with
    | invalidBaudRate => exact Or.inl rfl
    | ok m f => exact Or.inr ⟨m, f, rfl, rfl⟩

/-! ## DECONFIGURE -/

section Deconfigure

variable {i : Inst} {s : State}

theorem execDeconfigure_idle (h : s.seqState = .idle) :
    execDeconfigure i s = .next (s.accept (.deconfigure i)) := by
  simp [execDeconfigure, h]

theorem execDeconfigure_x1 (h : s.seqState = .x1RstAssert) :
    execDeconfigure i s = .next ((s.resetWrite i true).goto .x2RstRelease) := by
  simp [execDeconfigure, deconfigureAccesses, h]

theorem execDeconfigure_x2 (h : s.seqState = .x2RstRelease) :
    execDeconfigure i s = .next ((s.resetWrite i false).goto .x3GateOff) := by
  simp [execDeconfigure, deconfigureAccesses, h]

theorem execDeconfigure_x3 (h : s.seqState = .x3GateOff) :
    execDeconfigure i s = .next ((s.gateWrite i false).finish .none) := by
  simp [execDeconfigure, deconfigureAccesses, h]

/-- Every DECONFIGURE access is to its own instance (R140). -/
theorem deconfigureAccesses_target {a : Access} (h : a ∈ deconfigureAccesses i s) :
    a.target = some i := by
  unfold deconfigureAccesses at h
  split at h <;> simp at h
  all_goals (subst h; rfl)

end Deconfigure

end Sys2Proof.Machine
end

