-- ==== Sys2Proof/Laws/Environment.lean ====
section
/-! SUPPORT. What the environment's shared operations can do (60_exceptions.md part 3, 70_reset_and_hazards.md
R198): the interrupt banks bit by bit and byte by byte, exclusivity, what a move does to the instances'
registers, the transfer cursor. -/

namespace Sys2Proof.Machine

/-! ## The banks of the Interrupt Line Controller -/

/-- One bit of a word is replaced, the other 31 are as before (R161). -/
theorem putBit_getLsbD (w : Word) {k j : Nat} (b : Bool) (hk : k < 32) (hj : j < 32) :
    (putBit w k b).getLsbD j = if j = k then b else w.getLsbD j := by
  have one : ∀ n, (1#32).getLsbD n = decide (n = 0) := by intro n; rw [BitVec.getLsbD_one]; simp
  cases b <;> simp only [putBit, BitVec.getLsbD_or, BitVec.getLsbD_and, BitVec.getLsbD_not,
    BitVec.getLsbD_shiftLeft, one, hj, decide_true, Bool.true_and, if_true, Bool.false_eq_true, if_false]
  all_goals
    by_cases e : j = k
    · subst e; simp
    · have : j < k ∨ j - k ≠ 0 := by omega
      rcases this with h | h <;> simp [e, h]

/-- One byte of a word is replaced, the other three are as before (R162). -/
theorem putByte_byte (w : Word) {k j : Nat} (b : Byte) (hk : k < 4) (hj : j < 4) :
    (putByte w k b).toNat / 2 ^ (8 * j) % 256 = if j = k then b.toNat else w.toNat / 2 ^ (8 * j) % 256 := by
  have byte : ∀ v : Word, v.toNat / 2 ^ (8 * j) % 256 = (v.extractLsb' (8 * j) 8).toNat := by
    intro v; simp [BitVec.extractLsb', Nat.shiftRight_eq_div_pow]
  rw [byte, byte]
  have : (putByte w k b).extractLsb' (8 * j) 8 = if j = k then b else w.extractLsb' (8 * j) 8 := by
    ext n hn
    interval_cases k <;> interval_cases j <;> interval_cases n <;> simp [putByte]
  rw [this]
  split <;> rfl

theorem bank_getD {n : Nat} (v : Vector Word n) (j : Nat) (h : j < n) : v.getD j 0 = v[j] := by
  obtain ⟨a, ha⟩ := v
  subst ha
  simp [Vector.getD, h]

/-- One word of a bank is changed, the others are as before. -/
theorem putWord_getD {n : Nat} (v : Vector Word n) (k : Nat) (f : Word → Word) {j : Nat} (h : j < n) :
    (putWord v k f).getD j 0 = if j = k then f (v.getD j 0) else v.getD j 0 := by
  simp only [putWord, bank_getD _ j h, Vector.getElem_setIfInBounds]
  by_cases e : k = j
  · subst e
    rw [if_pos rfl, if_pos rfl, bank_getD _ _ h]
  · rw [if_neg e, if_neg (Ne.symm e)]

/-- With four implemented bits a priority stands in the top half of its byte (R162). -/
theorem priorityByte_toNat {p : Nat} (h : p < 16) : (priorityByte 4 p).toNat = 16 * p := by
  simp only [priorityByte, Nat.shiftLeft_eq, BitVec.toNat_ofNat]
  omega

/-! ## Exclusivity, and what a move does to the instances' registers -/

/-- A move that passes is on an instance no command works on (R198). -/
theorem exclusive_next {s t : State} {i : Inst} {o : Outcome} (h : s.exclusive i o = .next t) :
    s.workingOn ≠ some i ∧ o = .next t := by
  unfold State.exclusive at h
  split at h
  · cases h
  · exact ⟨‹_›, h⟩

/-- An access that passes is to a clocked instance with 8-bit words that no command works on (U15, U23, R198). -/
theorem dataAccess_next {s t : State} {i : Inst} {o : Outcome} (h : s.dataAccess i o = .next t) :
    s.workingOn ≠ some i ∧ (s.u.get i).wl = false ∧ s.gate.get i = true ∧ o = .next t := by
  obtain ⟨hw, h⟩ := exclusive_next h
  split at h
  · cases h
  split at h
  · exact ⟨hw, by simpa using ‹¬ (s.u.get i).wl = true›, ‹_›, h⟩
  · cases h

/-- Where the access may be made it is made. -/
theorem dataAccess_of {s : State} {i : Inst} (hx : s.workingOn ≠ some i) (hw : (s.u.get i).wl = false)
    (hg : s.gate.get i = true) (o : Outcome) : s.dataAccess i o = o := by
  simp [State.dataAccess, State.exclusive, hx, hw, hg]

/-- While a command works on the instance every access is the breach of R198. -/
theorem dataAccess_breach {s : State} {i : Inst} (hx : s.workingOn = some i) (o : Outcome) :
    s.dataAccess i o = .fault (.exclusivity i) := by
  simp [State.dataAccess, State.exclusive, hx]

/-- An event that meets no transfer does nothing, where it passes (R167). -/
theorem strayEvent_next {s t : State} {i : Inst} {flags : ErrorFlags} (h : s.strayEvent i flags = .next t) :
    t = s := by
  unfold State.strayEvent at h
  split at h <;> cases h
  rfl

/-- Everything an interrupt event can do: nothing, or one unit of progress or one abort of the transfer of an
enabled instance (R167, R168, R200). -/
theorem irq_next {s t : State} {i : Inst} {flags : ErrorFlags} {rx : Byte} (h : s.irq i flags rx = .next t) :
    t = s ∨ ∃ hd, (s.u.get i).en = true ∧ s.env.handles.get i = some hd ∧ hd.xfer.status.inProgress = true ∧
      t = { s with env := if flags.kinds = [] then s.env.irqProgress i hd rx else s.env.irqError i hd flags } := by
  unfold State.irq at h
  split at h
  · split at h
    · exact .inl (strayEvent_next h)
    · split at h
      · obtain ⟨-, -, -, h⟩ := dataAccess_next h
        cases h
        exact .inr ⟨_, ‹_›, ‹_›, ‹_›, rfl⟩
      · exact .inl (strayEvent_next h)
  · cases h
    exact .inl rfl

/-- Everything a poll can do: one step of a blocking call in progress (R169). -/
theorem poll_next {s t : State} {i : Inst} {ready : Bool} {rx : Byte} (h : s.poll i ready rx = .next t) :
    ∃ b, s.env.blocking.get i = some b ∧ b.xfer.status.inProgress = true ∧
      t = { s with env := s.env.pollStep i b (ready && (s.u.get i).en) rx } := by
  unfold State.poll at h
  split at h
  · cases h
  split at h
  · obtain ⟨-, -, -, h⟩ := dataAccess_next h
    cases h
    exact ⟨_, ‹_›, ‹_›, rfl⟩
  · cases h

/-- An environment move leaves the instances' fields, gates and reset lines alone, or makes one access to one
instance that no command works on (R21, R198). -/
theorem envMove_registers {s t : State} {a : EnvAction} (h : s.envMove a = .next t) :
    (t.u = s.u ∧ t.gate = s.gate ∧ t.rst = s.rst) ∨
      ∃ i, s.workingOn ≠ some i ∧
        ((∃ v, a = .writeField i v ∧ t = s.writeField i v) ∨ (∃ b, a = .writeGate i b ∧ t = s.gateWrite i b) ∨
          (∃ b, a = .writeReset i b ∧ t = s.resetWrite i b)) := by
  cases a <;> simp only [State.envMove] at h
  case writeField i v =>
    obtain ⟨hw, h⟩ := exclusive_next h
    split at h <;> cases h
    exact .inr ⟨i, hw, .inl ⟨v, rfl, rfl⟩⟩
  case writeGate i b =>
    obtain ⟨hw, h⟩ := exclusive_next h
    cases h
    exact .inr ⟨i, hw, .inr (.inl ⟨b, rfl, rfl⟩)⟩
  case writeReset i b =>
    obtain ⟨hw, h⟩ := exclusive_next h
    cases h
    exact .inr ⟨i, hw, .inr (.inr ⟨b, rfl, rfl⟩)⟩
  case setClock bus answer => cases h; cases bus <;> exact .inl ⟨rfl, rfl, rfl⟩
  case setEnabled => unfold State.setEnabled at h; split at h <;> cases h; exact .inl ⟨rfl, rfl, rfl⟩
  case setPriority =>
    unfold State.setPriority at h
    split at h
    · cases h
    · split at h <;> cases h
      exact .inl ⟨rfl, rfl, rfl⟩
  case bindHandle => unfold State.bindHandle at h; split at h <;> cases h; exact .inl ⟨rfl, rfl, rfl⟩
  case destroyHandle =>
    unfold State.destroyHandle at h
    split at h
    · cases h
    · split at h <;> cases h
      exact .inl ⟨rfl, rfl, rfl⟩
  case clear =>
    unfold State.clear at h
    split at h
    · cases h
    · split at h <;> cases h
      exact .inl ⟨rfl, rfl, rfl⟩
  case start =>
    obtain ⟨-, h⟩ := exclusive_next h
    unfold State.start at h
    split at h
    · cases h
    split at h
    · cases h; exact .inl ⟨rfl, rfl, rfl⟩
    split at h
    · cases h
    split at h <;> cases h
    exact .inl ⟨rfl, rfl, rfl⟩
  case irq =>
    rcases irq_next h with rfl | ⟨_, _, _, _, rfl⟩ <;> exact .inl ⟨rfl, rfl, rfl⟩
  case block =>
    obtain ⟨-, h⟩ := exclusive_next h
    unfold State.block at h
    split at h
    · cases h
    split at h <;> cases h
    exact .inl ⟨rfl, rfl, rfl⟩
  case poll =>
    obtain ⟨_, _, _, rfl⟩ := poll_next h
    exact .inl ⟨rfl, rfl, rfl⟩

/-! ## The transfer cursor -/

/-- Progress keeps the cursor inside the buffer (R167). -/
theorem Transfer.progress_cursor_le (x : Transfer) (rx : Byte) (h : x.cursor ≤ x.buf.length) :
    (x.progress rx).1.cursor ≤ (x.progress rx).1.buf.length := by
  unfold Transfer.progress
  cases x.status <;> simp <;> (try exact h) <;> split <;> omega

/-- An abort keeps the cursor inside the buffer (R168). -/
theorem Transfer.aborted_cursor_le (x : Transfer) (n : Nat) (h : x.cursor ≤ x.buf.length) :
    (x.aborted n).cursor ≤ (x.aborted n).buf.length := by
  unfold Transfer.aborted
  cases x.status <;> simp [abortedBuffer] <;> omega

end Sys2Proof.Machine
end

