-- ==== Sys2Proof/Laws/PerInstr.lean ====
section
/-! SUPPORT. Facts about every command as syntax, one lemma per constructor: its fields pass the checks of
30_encoding.md R79. -/

namespace Sys2Proof.Laws.FieldsLegal

/-- The fields of the command's word are a legal word's (R79). -/
def Statement (i : Instr) : Prop := i.wellFormed = true

theorem compute : Statement .compute := rfl

theorem configure (i : Inst) (wl : WordLen) (m : Mode) (p : Parity) (f : FlowCtl) (st : StopBits) :
    Statement (.configure i wl m p f st) := by
  have hi : i.val < 6 := i.isLt
  have h8 : i.val % 8 = i.val := by omega
  cases m <;> cases p <;>
    simp [Statement, Instr.wellFormed, Instr.fields, Fields.wellFormed, Fields.reservedZero,
      Fields.instNamed, Fields.modeNamed, Fields.parityNamed, Mode.code, Parity.code, h8, hi]

theorem deconfigure (i : Inst) : Statement (.deconfigure i) := by
  have hi : i.val < 6 := i.isLt
  have h8 : i.val % 8 = i.val := by omega
  simp [Statement, Instr.wellFormed, Instr.fields, Fields.wellFormed, Fields.reservedZero,
    Fields.instNamed, Fields.configZero, h8, hi]

end Sys2Proof.Laws.FieldsLegal
end

