-- ==== Sys2Proof/Laws/Run.lean ====
section
/-! SUPPORT. Runs of many steps and lists of accesses, one step at a time; what the clock lookup depends on. -/

namespace Sys2Proof.Machine

@[simp] theorem runFor_zero (s : State) : runFor 0 s = .next s := rfl

theorem runFor_step {s t : State} {n : Nat} (h : step s = .next t) : runFor (n + 1) s = runFor n t := by
  have h' : core.step s = Host.Outcome.next t := h
  simp only [runFor, Host.Core.run]
  rw [h']

/-- A run in two parts. -/
theorem runFor_add {s t : State} {n : Nat} (k : Nat) (h : runFor n s = .next t) :
    runFor (n + k) s = runFor k t := by
  induction n generalizing s with
  | zero => cases h; simp
  | succ n ih =>
    cases hs : step s with
    | next r =>
      rw [runFor_step hs] at h
      rw [show n + 1 + k = (n + k) + 1 by omega, runFor_step hs, ih h]
    | fault e =>
      have h' : core.step s = .fault e := hs
      simp [runFor, Host.Core.run, h'] at h
    | refused e =>
      have h' : core.step s = .refused e := hs
      simp [runFor, Host.Core.run, h'] at h

/-- With nobody else to move, a step runs the command in progress (R26). -/
theorem runFor_exec {s t : State} {n : Nat} {i : Instr} (ha : s.agenda = []) (hq : s.seqState ≠ .idle)
    (hd : decode s.cmd = .ok i) (h : exec i s = .next t) : runFor (n + 1) s = runFor n t :=
  runFor_step (by rw [step_nil ha, seqTurn_running hq hd]; exact h)

/-- In IDLE with nobody to move the machine waits (R26). -/
theorem runFor_idle {s : State} (n : Nat) (ha : s.agenda = []) (hq : s.seqState = .idle) :
    runFor n s = .next s := by
  induction n with
  | zero => rfl
  | succ n ih => rw [runFor_step (t := s) (by rw [step_nil ha, seqTurn_idle hq]), ih]

theorem accessTrace_succ {s t : State} {n : Nat} (h : s.seqTurn = .next t) :
    State.accessTrace (n + 1) s = s.nextAccesses ++ State.accessTrace n t := by
  simp [State.accessTrace, h]

theorem nextAccesses_configure {s : State} {i : Inst} {wl : WordLen} {m : Mode} {p : Parity} {f : FlowCtl}
    {st : StopBits} (h : decode s.cmd = .ok (.configure i wl m p f st)) :
    s.nextAccesses = configureAccesses i wl m p f st s := by
  simp [State.nextAccesses, State.fetch, h]

theorem nextAccesses_deconfigure {s : State} {i : Inst} (h : decode s.cmd = .ok (.deconfigure i)) :
    s.nextAccesses = deconfigureAccesses i s := by
  simp [State.nextAccesses, State.fetch, h]

/-- The lookup's answer depends on the platform's answers and the queries made, nothing else (R58). -/
theorem clockAnswer_congr {s t : State} (hA : t.clkA = s.clkA) (hB : t.clkB = s.clkB)
    (hq : t.queries = s.queries) (bus : Bus) : t.clockAnswer bus = s.clockAnswer bus := by
  simp [State.clockAnswer, hA, hB, hq]

/-- A value the host writes to `CMD`, as the register keeps it (R51). -/
theorem setWidth_cmd (w : CmdWord) : ((w.setWidth 32 : Word).setWidth 16 : CmdWord) = w := by
  apply BitVec.eq_of_toNat_eq
  have := w.isLt
  simp

end Sys2Proof.Machine
end

