-- ==== Sys2Proof/Tests/Slice0.lean ====
section
/-! SUPPORT. The model's own tests: the checks of `WellFormed` refuse ill-formed fields, words written out from
the spec decode to their commands, single steps against the spec's vectors, and a witness for the hypotheses of
each statement. Expected values come from spec/95_test_vectors.md and the rules' own tables. -/

namespace Sys2Proof.Tests

open Sys2Proof.Machine

/-! ## States to test on -/

/-- An idle block whose platform answers 16 MHz on both buses. -/
def idleState (agenda : List Event) : State :=
  { State.reset with
    opClk := 16000000
    opBaud := 115200
    clkA := some (some 16000000)
    clkB := some (some 16000000)
    agenda := agenda }

/-- A block with the command of word `w` in progress at `q`, every gate on. -/
def running (q : SeqState) (w : CmdWord) (agenda : List Event) : State :=
  { idleState agenda with
    cmd := w
    status := ⟨true, false, 0⟩
    seqState := q
    gate := Vector.replicate 6 true }

/-- `running` with the reset line of instance 1 held by the environment. -/
def heldRunning (q : SeqState) (w : CmdWord) : State :=
  { running q w [] with rst := (Vector.replicate 6 false).set 1 true }

/-- An idle block with every instance enabled and clocked and a Handle on instance 1, its transfer as given. -/
def withTransfer (x : Transfer) (agenda : List Event) : State :=
  { idleState agenda with
    u := Vector.replicate 6 { usartReset with en := true }
    gate := Vector.replicate 6 true
    env := { Env.reset with
      handles := (Vector.replicate 6 none).set 1 (some ⟨⟨.wl8, .txRx, .none, .none, .one, 9600⟩, x⟩) } }

/-! ## Well-formedness: an ill-formed term for each check (R79, R80) -/

theorem test_reserved_bits_refused : Fields.wellFormed ⟨1, 0, 0, 0, 0, 0, 0, 1⟩ = false := by decide

theorem test_reserved_op_refused : Fields.wellFormed ⟨0, 0, 0, 0, 0, 0, 0, 3⟩ = false := by decide

theorem test_reserved_inst_refused : Fields.wellFormed ⟨0, 0, 0, 0, 0, 0, 6, 1⟩ = false := by decide

theorem test_reserved_mode_refused : Fields.wellFormed ⟨0, 0, 0, 0, 3, 0, 0, 1⟩ = false := by decide

theorem test_reserved_parity_refused : Fields.wellFormed ⟨0, 0, 0, 3, 0, 0, 0, 1⟩ = false := by decide

theorem test_unused_field_refused :
    Fields.wellFormed ⟨0, 0, 0, 0, 0, 1, 0, 2⟩ = false ∧ Fields.wellFormed ⟨0, 0, 0, 0, 0, 0, 1, 0⟩ = false := by
  decide

/-- The illegal words of 95_test_vectors.md section 2.2. -/
theorem test_illegal_words :
    [0x0003#16, 0x0019, 0x001D, 0x00C1, 0x0301, 0x4001, 0x8000, 0x0004, 0x001A, 0x0022, 0x0102, 0x3EBD,
      0xFFFF].all (fun w => !legal w && !(Fields.ofWord w).wellFormed) = true := by decide

/-! ## Decoding words written out from the format of R74 -/

theorem test_decode_compute : decode 0b0000000000000000#16 = .ok .compute := rfl

theorem test_decode_configure :
    decode 0b0000000010000101#16 = .ok (.configure 1 .wl8 .txRx .none .none .one) ∧
      decode 0b0001010101001001#16 = .ok (.configure 2 .wl8 .rxOnly .even .rts .half) ∧
      decode 0b0011111010110101#16 = .ok (.configure 5 .wl9 .txRx .odd .both .oneAndHalf) := ⟨rfl, rfl, rfl⟩

theorem test_decode_deconfigure : decode 0b0000000000001110#16 = .ok (.deconfigure 3) := rfl

theorem test_decode_rejects :
    decode 0x4001 = .error .reservedBits ∧ decode 0x0003 = .error .reservedOp ∧
      decode 0x001D = .error .reservedInst ∧ decode 0x00C1 = .error .reservedMode ∧
      decode 0x0301 = .error .reservedParity ∧ decode 0x0102 = .error .unusedField := ⟨rfl, rfl, rfl, rfl, rfl, rfl⟩

theorem test_table_words :
    decodeTableWord 16 0x0000 = some .compute ∧
      decodeTableWord 16 0x0001 = some (.configure 0 .wl8 .txOnly .none .none .one) ∧
      decodeTableWord 16 0x0002 = some (.deconfigure 0) := by decide

/-- The commands of programs P4 and P5. -/
theorem test_encode :
    encode (.configure 5 .wl8 .txRx .none .none .one) = 0x0095 ∧
      encode (.configure 0 .wl9 .txOnly .odd .both .two) = 0x2E21 ∧ encode (.deconfigure 5) = 0x0016 := by decide

/-! ## DIVCALC: the table of R100 -/

theorem test_divcalc_results :
    ∀ x ∈ [(16000000, 9600, 104, 3), (16, 1, 1, 0), (16000000, 2000000, 0, 8), (16000000, 8000000, 0, 2),
      (1, 1, 0, 1), (1, 2, 0, 1), (1, 3, 0, 0), (100, 8, 0, 13), (63, 2, 2, 0), (1599, 100, 1, 0),
      (16000000, 250980, 4, 0), (65535, 1, 4095, 15), (84000000, 1282, 4095, 3),
      (4294967295, 4294967295, 0, 1), (42000000, 19200, 136, 12)],
      divcalc 12 x.1 x.2.1 = .ok x.2.2.1 x.2.2.2 := by decide

theorem test_divcalc_errors :
    ∀ x ∈ [(16000000, 0), (0, 9600), (0, 0), (65536, 1), (131071, 2), (84000000, 1200), (84000000, 1281),
      (4294967295, 1)], divcalc 12 x.1 x.2 = .invalidBaudRate := by decide

/-! ## Single steps -/

/-- 95_test_vectors.md section 2.1: `COMPUTE 16_000_000, 9600`. -/
theorem test_compute_step :
    (nextOf (step { running .k1Compute 0x0000 [] with opBaud := 9600 })).map
      (fun t => (t.resMant, t.resFrac, t.status.word, t.seqState)) = some (104, 3, 0x02, .idle) := by decide

/-- `COMPUTE 84_000_000, 1200` leaves the results and answers 0x06. -/
theorem test_compute_infeasible :
    (nextOf (step { running .k1Compute 0x0000 [] with opClk := 84000000, opBaud := 1200, resMant := 7 })).map
      (fun t => (t.resMant, t.status.word)) = some (7, 0x06) := by decide

/-- Trace of V2, `SEQ_STATE` 4: `TXEN = 1`, `RXEN = 0`, where a set `RXEN` is cleared. -/
theorem test_configure_mode_clears_rxen :
    (nextOf (step { running .c3bMode 0x2E21 [] with u := Vector.replicate 6 { usartReset with rxen := true } })).map
      (fun t => ((t.u.get 0).txen, (t.u.get 0).rxen, (t.u.get 1).rxen, t.seqState)) =
        some (true, false, true, .c3cParity) := by decide

/-- V8: `2 * 8_000_001 > 16_000_000` ends in BAUD_OUT_OF_RANGE, 0x0E. -/
theorem test_configure_baud_out_of_range :
    (nextOf (step { running .c4bDivide 0x0081 [] with opBaud := 8000001 })).map
      (fun t => (t.status.word, t.seqState)) = some (0x0E, .idle) := by decide

/-- X1: the reset pulse's first step on instance 1. -/
theorem test_deconfigure_asserts_reset :
    (nextOf (step { running .x1RstAssert 0x0006 [] with
        u := Vector.replicate 6 { usartReset with baudreg := 0x8B, en := true } })).map
      (fun t => (t.rst.get 1, (t.u.get 1).baudreg, (t.u.get 1).en, (t.u.get 2).baudreg, t.seqState)) =
        some (true, 0, false, 0x8B, .x2RstRelease) := by decide

/-- X1: the gate off ends the command. -/
theorem test_deconfigure_gate_off :
    (nextOf (step (running .x3GateOff 0x0006 []))).map (fun t => (t.gate.get 1, t.gate.get 0, t.status.word)) =
      some (false, true, 0x02) := by decide

/-- Section 2.5: an illegal word while idle gives 0x12 and is stored. -/
theorem test_illegal_word_refused :
    (nextOf (step (idleState [.hostWrite 0 0x0019]))).map (fun t => (t.cmd, t.status.word, t.seqState)) =
      some (0x0019, 0x12, .idle) := by decide

/-- Section 2.5: a legal word is accepted, 0x01 and `SEQ_STATE` 15. -/
theorem test_compute_accepted :
    (nextOf (step (idleState [.hostWrite 0 0]))).map (fun t => (t.status.word, t.seqState.code)) =
      some (0x01, 15) := by decide

/-- The first instruction after reset: the very next step runs it (log entry 7). -/
theorem test_first_instruction :
    (nextOf (step (State.reset.withFetchWord 16 0x0000))).map (fun t => t.status.word) = some 0x06 ∧
      (nextOf (step (State.reset.withFetchWord 16 0x0001))).map (fun t => (t.gate.get 0, t.seqState)) =
        some (true, .c2Disable) ∧
      (nextOf (step (State.reset.withFetchWord 16 0x0002))).map (fun t => (t.rst.get 0, t.seqState)) =
        some (true, .x2RstRelease) := by decide

/-- S2: `set_priority(5, 3)` gives `IPR[1] = 0x0000_3000`; section 2.6: `set_enabled(37, true)`. -/
theorem test_interrupt_line_controller :
    (nextOf (step (idleState [.env (.setPriority 5 3)]))).map (fun t => t.env.ipr[1]) = some 0x3000 ∧
      (nextOf (step (idleState [.env (.setEnabled 37 true)]))).map (fun t => t.env.ien[1]) = some 0x20 ∧
      priorityByte 3 3 = 0x60 ∧ priorityByte 8 3 = 0x03 := by decide

/-- S7: a framing flag in the third event of a receive; the stored bytes stay. -/
theorem test_framing_error_aborts :
    (nextOf (step (withTransfer ⟨.receiving, [7, 8, 0, 0], 2⟩ [.env (.irq 1 ⟨false, true, false⟩ 9)]))).map
      (fun t => (t.env.handles.get 1).map
        (fun h => (h.xfer.status, h.xfer.cursor, h.xfer.buf.take 2))) = some (some (.error, 2, [7, 8])) := by
  decide

/-- S7: `FramingError` is what the notifier gets. -/
theorem test_framing_error_notified :
    (nextOf (step (withTransfer ⟨.receiving, [7, 8, 0, 0], 2⟩ [.env (.irq 1 ⟨false, true, false⟩ 9)]))).map
      (fun t => t.env.notified) = some [(1, .framingError)] := by
  have pick : ∀ n : Nat, [EventKind.framingError].getD (n % 1) .overrunError = .framingError := by
    intro n; rw [Nat.mod_one]; rfl
  exact congrArg (fun k => some [((1 : Inst), k)]) (pick (Config.errorPick 0))

/-! ## Witnesses: states and operands that meet the hypotheses of the statements -/

/-- The CONFIGURE of 41_configure.md R131, word 0x0085. -/
def cfg1 : Instr := .configure 1 .wl8 .txRx .none .none .one

/-- `idleState` with other operands or another platform answer. -/
def idleWith (baud : Word) (answer : Option Word) (agenda : List Event) : State :=
  { idleState agenda with opBaud := baud, clkA := some answer, clkB := some answer }

theorem answer_of_both (s : State) (a : Option Word) (bus : Bus) (hA : s.clkA = some a) (hB : s.clkB = some a) :
    s.clockAnswer bus = a := by
  cases bus <;> simp [State.clockAnswer, hA, hB]

theorem running_inv (q : SeqState) (w : CmdWord) (agenda : List Event) (hq : q ≠ .idle)
    (hr : (running q w agenda).inRow) : StateInv (running q w agenda) where
  idle_iff := by simp [running, hq]
  busy_clear := by simp [running]
  err_le := by simp [running]
  in_row := fun _ => hr
  held := by intro i; simp [running, idleState, State.reset]
  gated := by intro i; simp [running]
  disabled := by intro i; simp [running, idleState, State.reset, usartReset]
  cursor_le := by intro i h; simp [running, idleState, State.reset, Env.reset]
  blocking_cursor_le := by intro i b; simp [running, idleState, State.reset, Env.reset]

theorem witness_HostWriteIssuesCommand :
    (idleState [.hostWrite 0 0x0085]).status.busy = false ∧
      decode ((0x0085 : Word).setWidth 16) = .ok cfg1 ∧
      (idleState [.hostWrite 0 0x0085]).callerReady cfg1 = true ∧
      ∀ i, decode ((0x0019 : Word).setWidth 16) ≠ .ok i :=
  ⟨rfl, rfl, by decide, by
    have h : decode ((0x0019 : Word).setWidth 16) = .error .reservedInst := rfl
    intro i hi
    rw [h] at hi
    cases hi⟩

theorem witness_IllegalWordChangesOnlyCmdAndStatus :
    (idleState [.hostWrite 0 0x0019]).status.busy = false ∧ legal ((0x0019 : Word).setWidth 16) = false ∧
      ∃ t, step (idleState [.hostWrite 0 0x0019]) = .next t := ⟨rfl, by decide, _, rfl⟩

theorem witness_WritesWhileBusyAreIgnored :
    ∀ o ∈ [0x00, 0x04, 0x08], (running .c3aWl 0x0085 [.hostWrite o 7]).status.busy = true ∧
      (running .c3aWl 0x0085 [.hostWrite o 7]).agenda = .hostWrite o 7 :: [] := by decide

theorem witness_RegisterMap :
    (∀ o ∈ [0x00, 0x04, 0x08, 0x0C, 0x10, 0x14, 0x18],
      ((running .c3aWl 0x0085 []).hostRead o).isSome = true) ∧
    0x1C ∉ [0x00, 0x04, 0x08] ∧ (0x10085 : Word).toNat % 65536 = (0x0085 : Word).toNat % 65536 ∧
      (idleState [.hostRead 0x18]).agenda = .hostRead 0x18 :: [] := by decide

theorem witness_OperandWritesLand :
    (idleState [.hostWrite 4 7]).status.busy = false ∧
      (idleState [.hostWrite 4 7]).agenda = .hostWrite 0x04 7 :: [] ∧
      (idleState [.hostWrite 8 7]).agenda = .hostWrite 0x08 7 :: [] := by decide

theorem witness_StepRunsTheDecodedCommand :
    (running .c3aWl 0x0085 []).seqState ≠ .idle ∧ decode (running .c3aWl 0x0085 []).cmd = .ok cfg1 ∧
      (running .c3aWl 0x0085 [.seq]).agenda = .seq :: [] ∧ (idleState []).seqState = .idle :=
  ⟨by decide, rfl, rfl, rfl⟩

theorem witness_SeqFollowsTheTable :
    (running .c5Enable 0x0085 []).seqState ≠ .idle ∧ (∃ t, (running .c5Enable 0x0085 []).seqTurn = .next t) ∧
      (∃ t, (running .k1Compute 0x0000 []).seqTurn = .next t) ∧
      ∃ t, (running .x1RstAssert 0x0006 []).seqTurn = .next t := ⟨by decide, ⟨_, rfl⟩, ⟨_, rfl⟩, ⟨_, rfl⟩⟩

theorem witness_OnlyAcceptanceLeavesIdle :
    ∃ t, step (idleState [.hostWrite 0 0x0006]) = .next t ∧ t.seqState ≠ .idle := ⟨_, rfl, by decide⟩

theorem witness_ExecInIdleAccepts : (idleState []).seqState = .idle := rfl

theorem witness_CommandInProgressIsFixed :
    ∃ t, step (running .c3aWl 0x0085 [.hostWrite 8 7]) = .next t ∧
      (running .c3aWl 0x0085 [.hostWrite 8 7]).status.busy = true ∧
      ∀ rest, (running .c3aWl 0x0085 [.hostWrite 8 7]).agenda ≠ .powerOn :: rest :=
  ⟨_, rfl, rfl, by intro rest h; cases h⟩

/-- Both clauses of R93 at an exact half, 100 ÷ 8 = 12.5, and a fraction that rounds to 16, 63 and 2. -/
theorem witness_DivisorIsTheTwoStepDefinition :
    divisorD 100 8 = 13 ∧ 8 % 2 = 0 ∧ 100 % 8 = 8 / 2 ∧ divisorD 63 2 = 32 := by decide

/-- The last clock that fits at 1 Hz and the first that does not. -/
theorem witness_DivcalcSucceedsExactly :
    2 * 65535 < 131071 * 1 ∧ ¬ 2 * 65536 < 131071 * 1 ∧ divcalc 12 65535 1 = .ok 4095 15 := by decide

theorem witness_DivisorNeedsThirtyFourBits :
    4294967295 < 2 ^ 32 ∧ 1 < 2 ^ 32 ∧ 1 ≠ 0 ∧ 2 ^ 33 ≤ 2 * 4294967295 + 4294967295 := by decide

theorem witness_ComputeCompletes :
    (running .k1Compute 0 []).seqState = .k1Compute ∧
      (2 * 65535 + 1) / (2 * 1) / 16 < 4096 ∧ 4096 ≤ (2 * 65536 + 1) / (2 * 1) / 16 := by decide

theorem witness_ComputeDependsOnOperandsOnly :
    (∃ t, exec .compute (running .k1Compute 0 []) = .next t) ∧
      ∃ t, exec .compute { running .k1Compute 0x8000 [] with resMant := 5 } = .next t := ⟨⟨_, rfl⟩, ⟨_, rfl⟩⟩

theorem witness_ComputeFrame :
    ∃ t, exec .compute { running .k1Compute 0 [] with opBaud := 0 } = .next t ∧ t.status.err ≠ 0 :=
  ⟨_, rfl, by decide⟩

theorem witness_FieldRMWLeavesUnrelatedBits :
    (running .c3aWl 0x0085 []).rst.get 1 = false ∧ (heldRunning .c3aWl 0x0085).rst.get 1 = true ∧
      (FieldVal.wl true).name ≠ .en ∧ (FieldVal.en true).name ≠ .wl := by decide

theorem witness_GateAndResetWrites : (0 : Inst) ≠ 1 := by decide

theorem witness_AccessesAreIdempotent : ∀ b, Access.write 1 (.en true) ≠ .query b := by intro b h; cases h

theorem witness_ConfigureGateOnThenDisable :
    (running .c1GateOn 0x0085 []).seqState = .c1GateOn ∧ (running .c2Disable 0x0085 []).rst.get 1 = false ∧
      (∀ q ∈ [SeqState.c3aWl, .c5Enable], StateInv (running q 0x0085 []) ∧
        (running q 0x0085 []).workingOn = some 1 ∧ (running q 0x0085 []).seqState.afterDisable = true) := by
  refine ⟨rfl, by decide, ?_⟩
  intro q hq
  simp only [List.mem_cons, List.not_mem_nil, or_false] at hq
  rcases hq with rfl | rfl
  · exact ⟨running_inv _ _ _ (by decide) rfl, rfl, rfl⟩
  · exact ⟨running_inv _ _ _ (by decide) rfl, rfl, rfl⟩

theorem witness_ConfigureWritesTheFields :
    ∀ q ∈ [SeqState.c3aWl, .c3bMode, .c3cParity, .c3dFlow, .c3eStop],
      (running q 0x2E21 []).rst.get 0 = false ∧ (running q 0x2E21 []).seqState = q := by decide

theorem witness_ConfigureFieldsAfterEachStep :
    ∀ q ∈ [SeqState.c3aWl, .c3bMode, .c3cParity, .c3dFlow, .c3eStop],
      (running q 0x0085 []).rst.get 1 = false ∧ (running q 0x0085 []).seqState = q := by decide

theorem witness_ConfigureClockStep :
    (running .c4aClock 0x0085 []).clockAnswer (Config.bus 1) = some 16000000 ∧
      State.clockAnswer { running .c4aClock 0x0085 [] with clkA := some none, clkB := some none } (Config.bus 1) =
        none := ⟨answer_of_both _ _ _ rfl rfl, answer_of_both _ _ _ rfl rfl⟩

/-- The boundaries of R121 and R122: `2 * 8_000_000` is 16 MHz; at 84 MHz 1281 baud is too slow, 1282 not. -/
theorem witness_ConfigureDivideStep :
    2 * 8000000 ≤ 16000000 ∧ 16000000 < 2 * 8000001 ∧ 4096 ≤ (2 * 84000000 + 1281) / (2 * 1281) / 16 ∧
      (2 * 84000000 + 1282) / (2 * 1282) / 16 < 4096 ∧
      (running .c4bDivide 0x0085 []).seqState = .c4bDivide := by decide

theorem witness_ConfigureBaudregThenEnable :
    (running .c4cBaudreg 0x0085 []).rst.get 1 = false ∧ (running .c5Enable 0x0085 []).rst.get 1 = false := by
  decide

theorem witness_ConfigureOfAHeldInstance :
    ∀ q ∈ [SeqState.c2Disable, .c3aWl, .c4cBaudreg, .c5Enable],
      (heldRunning q 0x0085).rst.get 1 = true ∧
        ((heldRunning q 0x0085).seqState.afterDisable = true ∨ (heldRunning q 0x0085).seqState = .c2Disable) := by
  decide

/-- R131's example, and the boundary rate of half the clock. -/
theorem witness_ConfigureCommandEffect :
    (idleState [issueEvent cfg1]).status.busy = false ∧ (idleState [issueEvent cfg1]).callerReady cfg1 = true ∧
      (idleState [issueEvent cfg1]).rst.get 1 = false ∧
      (idleState [issueEvent cfg1]).clockAnswer (Config.bus 1) = some 16000000 ∧
      2 * 115200 ≤ 16000000 ∧ divcalc 12 16000000 115200 = .ok 8 11 ∧
      2 * 8000000 ≤ 16000000 ∧ divcalc 12 16000000 8000000 = .ok 0 2 :=
  ⟨rfl, by decide, by decide, answer_of_both _ _ _ rfl rfl, by decide, by decide, by decide, by decide⟩

theorem witness_ConfigureFailureEffect :
    (idleWith 9600 none [issueEvent cfg1]).clockAnswer (Config.bus 1) = none ∧
      (idleWith 0 (some 16000000) [issueEvent cfg1]).clockAnswer (Config.bus 1) = some 16000000 ∧
      (idleWith 0 (some 16000000) [issueEvent cfg1]).opBaud.toNat = 0 ∧
      (16000000 : Word).toNat < 2 * (8000001 : Word).toNat ∧
      divcalc 12 84000000 1281 = .invalidBaudRate ∧
      (idleWith 9600 none [issueEvent cfg1]).callerReady cfg1 = true :=
  ⟨answer_of_both _ _ _ rfl rfl, answer_of_both _ _ _ rfl rfl, by decide, by decide, by decide, by decide⟩

theorem witness_ConfigureAccessList :
    (idleState []).clockAnswer (Config.bus 1) = some 16000000 ∧
      divcalc 12 (16000000 : Word).toNat (idleState []).opBaud.toNat = .ok 8 11 ∧
      (idleWith 9600 none []).clockAnswer (Config.bus 1) = none ∧
      (idleWith 0 (some 16000000) []).opBaud.toNat = 0 :=
  ⟨answer_of_both _ _ _ rfl rfl, by decide, answer_of_both _ _ _ rfl rfl, by decide⟩

/-- A CONFIGURE that has just been issued runs to its end, whichever bus its instance is on. -/
theorem witness_ConfigureTwiceIsOnce :
    ∃ t, runFor 12 (idleState [issueEvent cfg1]) = .next t ∧ t.status = ⟨false, true, 0⟩ ∧
      t.clockAnswer (Config.bus 1) = (idleState [issueEvent cfg1]).clockAnswer (Config.bus 1) := by
  obtain ⟨r, hr, ha, hd, hA, hB, hq, hx⟩ :
      ∃ r, runFor 8 (idleState [issueEvent cfg1]) = .next r ∧ r.agenda = [] ∧ decode r.cmd = .ok cfg1 ∧
        r.clkA = some (some 16000000) ∧ r.clkB = some (some 16000000) ∧ r.seqState = .c4aClock ∧
        ∃ t, runFor 3 (clockStep (some 16000000) r.countQuery) = .next t ∧ t.status = ⟨false, true, 0⟩ ∧
          t.clkA = some (some 16000000) ∧ t.clkB = some (some 16000000) :=
    ⟨_, rfl, rfl, rfl, rfl, rfl, rfl, _, rfl, rfl, rfl, rfl⟩
  obtain ⟨t, ht, hs, htA, htB⟩ := hx
  refine ⟨t, ?_, hs, ?_⟩
  · rw [runFor_add 4 hr, runFor_exec (n := 3) ha (by simp [hq]) hd (execConfigure_c4a hq),
      answer_of_both r _ _ hA hB, ht]
  · rw [answer_of_both t _ _ htA htB, answer_of_both (idleState [issueEvent cfg1]) _ _ rfl rfl]

theorem witness_ConfigureFrame :
    (∃ t, exec cfg1 (running .c3aWl 0x0085 []) = .next t ∧ t.seqState ≠ .idle) ∧
      ∃ t, exec cfg1 (running .c5Enable 0x0085 []) = .next t := ⟨⟨_, rfl, by decide⟩, ⟨_, rfl⟩⟩

theorem witness_DeconfigureSteps :
    ∀ q ∈ [SeqState.x1RstAssert, .x2RstRelease, .x3GateOff], (running q 0x0006 []).seqState = q := by decide

theorem witness_DeconfigureCommandEffect :
    (idleState [issueEvent (.deconfigure 1)]).status.busy = false ∧
      (idleState [issueEvent (.deconfigure 1)]).callerReady (.deconfigure 1) = true := by decide

theorem witness_DeconfigureRoundTrip :
    (idleState (issueEvent cfg1 :: List.replicate 11 .seq ++ [issueEvent (.deconfigure 1)])).callerReady
        (.deconfigure 1) = true ∧
      ∃ t, runFor 4 (idleState [issueEvent (.deconfigure 1)]) = .next t := ⟨by decide, _, rfl⟩

theorem witness_DeconfigureFrame :
    (∃ t, exec (.deconfigure 1) (running .x1RstAssert 0x0006 []) = .next t ∧ t.seqState ≠ .idle) ∧
      ∃ t, exec (.deconfigure 1) (running .x3GateOff 0x0006 []) = .next t := ⟨⟨_, rfl, by decide⟩, ⟨_, rfl⟩⟩

theorem witness_CommandsEndWithTheirCodes :
    (∃ t, exec .compute (running .k1Compute 0 []) = .next t ∧ t.seqState = .idle) ∧
      (∃ t, exec cfg1 (running .c5Enable 0x0085 []) = .next t ∧ t.seqState = .idle) ∧
      ∃ t, exec (.deconfigure 1) (running .x3GateOff 0x0006 []) = .next t ∧ t.seqState = .idle :=
  ⟨⟨_, rfl, rfl⟩, ⟨_, rfl, rfl⟩, ⟨_, rfl, rfl⟩⟩

theorem witness_StepKeepsInv :
    StateInv (running .c3aWl 0x0085 []) ∧ ∃ t, step (running .c3aWl 0x0085 []) = .next t :=
  ⟨running_inv _ _ _ (by decide) rfl, _, rfl⟩

theorem witness_ResetLineOnlyInPulse :
    StateInv (running .x1RstAssert 0x0006 []) ∧ ResetOnlyInPulse (running .x1RstAssert 0x0006 []) ∧
      (running .x1RstAssert 0x0006 []).noResetWriteNext ∧
      ∃ t, step (running .x1RstAssert 0x0006 []) = .next t ∧ t.rst.get 1 = true := by
  refine ⟨running_inv _ _ _ (by decide) rfl, ?_, ?_, _, rfl, by decide⟩
  · intro i; simp [running, idleState, State.reset]
  · intro i b rest h; cases h

theorem witness_EveryCommandEnds :
    StateInv (running .c1GateOn 0x0085 []) ∧ (running .c1GateOn 0x0085 []).agenda = [] ∧
      (running .c1GateOn 0x0085 []).seqState ≠ .idle :=
  ⟨running_inv _ _ _ (by decide) rfl, rfl, by decide⟩

theorem witness_PowerOnResets : (running .c3aWl 0x0085 [.powerOn]).agenda = .powerOn :: [] := rfl

theorem witness_BreakingExclusivityFaults :
    (running .c3aWl 0x0085 [.env (.writeField 1 (.en true))]).workingOn = some 1 ∧
      instrInst (.deconfigure 1) = some 1 ∧
      (withTransfer ⟨.sending, [1], 0⟩ [issueEvent (.deconfigure 1)]).env.transferOn 1 = true ∧
      (withTransfer ⟨.sending, [1], 0⟩ [issueEvent (.deconfigure 1)]).status.busy = false :=
  ⟨rfl, rfl, by decide, rfl⟩

/-- A CONFIGURE of instance 1 accepted under a transfer in progress on it, which only a breach of R198 leads to. -/
def brokenIntoTransfer : State :=
  { withTransfer ⟨.sending, [7], 0⟩ [.env (.irq 1 ⟨false, false, false⟩ 0)] with
    cmd := 0x0085, status := ⟨true, false, 0⟩, seqState := .c1GateOn }

theorem witness_BreakingExclusivityByAnEvent :
    brokenIntoTransfer.workingOn = some 1 ∧ (brokenIntoTransfer.u.get 1).en = true ∧
      (∃ h, brokenIntoTransfer.env.handles.get 1 = some h ∧ h.xfer.status.inProgress = true) ∧
      (⟨⟨.sending, [7], 0⟩, none⟩ : Blocking).xfer.status.inProgress = true := ⟨rfl, rfl, ⟨_, rfl, rfl⟩, rfl⟩

/-- An event of an instance with no transfer, while a CONFIGURE works on it, does nothing (R156, R167). -/
theorem test_event_without_transfer_breaks_nothing :
    nextOf (step (running .c3aWl 0x0085 [.env (.irq 1 ⟨false, false, false⟩ 0)])) =
        some (running .c3aWl 0x0085 []) ∧
      nextOf (step { running .c1GateOn 0x0085 [.env (.irq 1 ⟨false, false, false⟩ 0)] with
        u := Vector.replicate 6 { usartReset with en := true } }) =
        some { running .c1GateOn 0x0085 [] with u := Vector.replicate 6 { usartReset with en := true } } :=
  ⟨rfl, rfl⟩

theorem witness_OtherInstancesMayBeUsedMeanwhile :
    StateInv (running .c3aWl 0x0085 []) ∧ (running .c3aWl 0x0085 []).workingOn = some 1 ∧ (0 : Inst) ≠ 1 ∧
      (∃ u, (running .c3aWl 0x0085 []).seqTurn = .next u) ∧
      (∃ t, (running .c3aWl 0x0085 []).envMove (.writeField 0 (.en true)) = .next t) ∧
      (∃ t, (running .c3aWl 0x0085 []).envMove (.writeGate 0 false) = .next t) ∧
      ∃ t, (running .c3aWl 0x0085 []).envMove (.writeReset 0 true) = .next t :=
  ⟨running_inv _ _ _ (by decide) rfl, rfl, by decide, ⟨_, rfl⟩, ⟨_, rfl⟩, ⟨_, rfl⟩, ⟨_, rfl⟩⟩

/-- The same command on instance 0 while a Handle of instance 1 and a blocking call of instance 2 act. -/
def busyElsewhere : State :=
  { running .c3aWl 0x0081 [] with
    u := Vector.replicate 6 { usartReset with en := true } |>.set 0 usartReset
    env := { Env.reset with
      handles := (Vector.replicate 6 none).set 1
        (some ⟨⟨.wl8, .txRx, .none, .none, .one, 9600⟩, ⟨.sending, [7], 0⟩⟩)
      blocking := (Vector.replicate 6 none).set 2 (some ⟨⟨.sending, [8], 0⟩, none⟩) } }

theorem witness_OtherInstancesTransfers :
    busyElsewhere.workingOn = some 0 ∧ (∃ t, busyElsewhere.envMove (.start 1 .send [1]) = .next t) ∧
      (∃ t, busyElsewhere.envMove (.irq 1 ⟨false, false, false⟩ 0) = .next t) ∧
      (∃ t, busyElsewhere.envMove (.block 3 .send [1] none) = .next t) ∧
      (∃ t, busyElsewhere.envMove (.poll 2 true 0) = .next t) ∧
      (∃ t, busyElsewhere.envMove (.bindHandle 3 ⟨.wl8, .txRx, .none, .none, .one, 9600⟩) = .next t) :=
  ⟨rfl, ⟨_, rfl⟩, ⟨_, rfl⟩, ⟨_, rfl⟩, ⟨_, rfl⟩, ⟨_, rfl⟩⟩

/-- The invariant holds there, so the witness is for all hypotheses together. -/
theorem busyElsewhere_inv : StateInv busyElsewhere where
  idle_iff := by simp [busyElsewhere, running]
  busy_clear := by simp [busyElsewhere, running]
  err_le := by simp [busyElsewhere, running]
  in_row := fun _ => rfl
  held := by intro i; simp [busyElsewhere, running, idleState, State.reset]
  gated := by intro i; simp [busyElsewhere, running]
  disabled := by
    intro i h
    have hi : (0 : Inst) = i := Option.some.inj h
    subst hi
    intro _
    rfl
  cursor_le := by
    intro i h hh
    fin_cases i <;> first | (cases hh; decide) | cases hh
  blocking_cursor_le := by
    intro i b hb
    fin_cases i <;> first | (cases hb; decide) | cases hb

theorem witness_EnvironmentLeavesTheBlock :
    ∃ t, (idleState []).envMove (.setClock .busA (some none)) = .next t := ⟨_, rfl⟩

theorem witness_UnclockedWriteIsRefused :
    (idleState [.env (.writeField 1 (.en true))]).workingOn ≠ some 1 ∧
      (idleState [.env (.writeField 1 (.en true))]).gate.get 1 = false := ⟨by decide, by decide⟩

/-- The last line and priority that exist, and the first that do not. -/
theorem witness_interrupt_line_bounds : 95 < 96 ∧ 96 ≤ 96 ∧ 15 < 16 ∧ 16 ≤ 16 := by decide

theorem witness_StartWhileSendingIsBusy :
    (∃ h, (withTransfer ⟨.sending, [1], 0⟩ []).env.handles.get 1 = some h ∧ h.xfer.status = .sending) ∧
      (∃ h, (withTransfer ⟨.receiving, [1], 0⟩ []).env.handles.get 1 = some h ∧ h.xfer.status = .receiving) ∧
      (withTransfer ⟨.sending, [1], 0⟩ []).workingOn ≠ some 1 := ⟨⟨_, rfl, rfl⟩, ⟨_, rfl, rfl⟩, by decide⟩

theorem witness_StartBeginsATransfer :
    ∀ q ∈ [XferStatus.idle, .complete, .error],
      (∃ h, (withTransfer ⟨q, [], 0⟩ []).env.handles.get 1 = some h ∧ h.xfer.status = q) ∧
        (withTransfer ⟨q, [], 0⟩ []).env.transferOn 1 = false ∧
        ((withTransfer ⟨q, [], 0⟩ []).u.get 1).wl = false ∧ (withTransfer ⟨q, [], 0⟩ []).workingOn ≠ some 1 := by
  intro q hq
  simp only [List.mem_cons, List.not_mem_nil, or_false] at hq
  rcases hq with rfl | rfl | rfl
  · exact ⟨⟨_, rfl, rfl⟩, by decide, rfl, by decide⟩
  · exact ⟨⟨_, rfl, rfl⟩, by decide, rfl, by decide⟩
  · exact ⟨⟨_, rfl, rfl⟩, by decide, rfl, by decide⟩

/-- A blocking send of two bytes at each cursor, with no bound, one poll left and none left. -/
theorem witness_BlockingSendPolls :
    ∀ c ∈ [0, 1], ∀ n ∈ [none, some 1, some 0],
      (State.env { running .c3aWl 0x0081 [] with env := { Env.reset with
        blocking := (Vector.replicate 6 none).set 1 (some ⟨⟨.sending, [7, 8], c⟩, n⟩) } }).blocking.get 1 =
          some ⟨⟨.sending, [7, 8], c⟩, n⟩ ∧
        (running .c3aWl 0x0081 []).gate.get 1 = true ∧ (running .c3aWl 0x0081 []).workingOn ≠ some 1 ∧
        ((running .c3aWl 0x0081 []).u.get 1).wl = false ∧
        ([7, 8] : List Byte).drop c ≠ [] := by decide

theorem witness_SendWritesEveryByteInOrder :
    ∃ h, (withTransfer ⟨.complete, [], 0⟩ []).env.handles.get 1 = some h ∧ h.xfer.status.inProgress = false ∧
      (withTransfer ⟨.complete, [], 0⟩ []).env.transferOn 1 = false ∧
      ((withTransfer ⟨.complete, [], 0⟩ []).u.get 1).wl = false ∧
      ((withTransfer ⟨.complete, [], 0⟩ []).u.get 1).en = true ∧
      (withTransfer ⟨.complete, [], 0⟩ []).gate.get 1 = true ∧
      (withTransfer ⟨.complete, [], 0⟩ []).seqState = .idle ∧ ([7] : List Byte) ≠ [] :=
  ⟨_, rfl, rfl, by decide, rfl, rfl, rfl, rfl, by decide⟩

/-- At the boundary too: a cursor at the end of an empty buffer. -/
theorem witness_ErrorFlagAbortsTheReceive :
    ∀ x ∈ [(⟨.receiving, [7, 8, 0, 0], 2⟩ : Transfer), ⟨.receiving, [], 0⟩],
      (∃ h, (withTransfer x []).env.handles.get 1 = some h ∧ h.xfer.status = .receiving) ∧
      ((withTransfer x []).u.get 1).wl = false ∧ ((withTransfer x []).u.get 1).en = true ∧
      (withTransfer x []).gate.get 1 = true ∧ (withTransfer x []).workingOn ≠ some 1 := by
  intro x hx
  simp only [List.mem_cons, List.not_mem_nil, or_false] at hx
  rcases hx with rfl | rfl
  · exact ⟨⟨_, rfl, rfl⟩, rfl, rfl, rfl, by decide⟩
  · exact ⟨⟨_, rfl, rfl⟩, rfl, rfl, rfl, by decide⟩

theorem witness_ErrorFlagAbortsTheSend :
    (∃ h, (withTransfer ⟨.sending, [7, 8], 1⟩ []).env.handles.get 1 = some h ∧ h.xfer.status = .sending) ∧
      ((withTransfer ⟨.sending, [7, 8], 1⟩ []).u.get 1).en = true ∧
      ((withTransfer ⟨.sending, [7, 8], 1⟩ []).u.get 1).wl = false ∧
      (withTransfer ⟨.sending, [7, 8], 1⟩ []).gate.get 1 = true ∧
      (withTransfer ⟨.sending, [7, 8], 1⟩ []).workingOn ≠ some 1 := ⟨⟨_, rfl, rfl⟩, rfl, rfl, rfl, by decide⟩

/-- The state a failed CONFIGURE leaves an instance in, disabled and clocked, with a transfer started on it. -/
def disabledSending (agenda : List Event) : State :=
  { withTransfer ⟨.sending, [7], 0⟩ agenda with u := Vector.replicate 6 usartReset }

theorem witness_DisabledInstanceWaits :
    ((disabledSending []).u.get 1).en = false ∧ (disabledSending []).workingOn ≠ some 1 ∧
      (disabledSending []).seqState = .idle ∧
      (disabledSending [.env (.irq 1 ⟨false, false, false⟩ 0)]).agenda =
        [((⟨false, false, false⟩ : ErrorFlags), (0 : Byte))].map (fun e => .env (.irq 1 e.1 e.2)) :=
  ⟨rfl, by decide, rfl, rfl⟩

theorem witness_UnclockedTransferIsRefused :
    (∃ h, (withTransfer ⟨.sending, [7], 0⟩ []).env.handles.get 1 = some h ∧ h.xfer.status.inProgress = true) ∧
      ((withTransfer ⟨.sending, [7], 0⟩ []).u.get 1).en = true ∧
      ((withTransfer ⟨.sending, [7], 0⟩ []).u.get 1).wl = false ∧
      State.workingOn { withTransfer ⟨.sending, [7], 0⟩ [] with gate := Vector.replicate 6 false } ≠ some 1 ∧
      PerInst.get (Vector.replicate 6 false) (1 : Inst) = false ∧
      (⟨⟨.sending, [7], 0⟩, none⟩ : Blocking).xfer.status.inProgress = true :=
  ⟨⟨_, rfl, rfl⟩, rfl, rfl, by decide, rfl, rfl⟩

/-- A transfer started after a failed CONFIGURE: the event that an enabled instance would raise does nothing, and
the same event on an enabled instance sends the byte (R200). -/
theorem test_disabled_instance_sends_nothing :
    (nextOf (step (disabledSending [.env (.irq 1 ⟨false, false, false⟩ 0)]))).map (fun t => t.env.sent.get 1) =
        some [] ∧
      (nextOf (step (withTransfer ⟨.sending, [7], 0⟩ [.env (.irq 1 ⟨false, false, false⟩ 0)]))).map
        (fun t => t.env.sent.get 1) = some [7] := by decide

end Sys2Proof.Tests
end

/-! SUPPORT. The decoder takes every command's word back to the command (30_encoding.md R83), so a host write of an
encoded command issues it. -/

namespace Sys2Proof

/-- Cutting a word put together from fields gives the fields back (R74). -/
theorem Fields.ofWord_toWord (f : Fields) : Fields.ofWord f.toWord = f := by
  obtain ⟨rsvd, stop, flow, parity, mode, wl, inst, op⟩ := f
  simp only [Fields.ofWord, Fields.toWord, Fields.mk.injEq]
  refine ⟨?_, ?_, ?_, ?_, ?_, ?_, ?_, ?_⟩
  all_goals
    ext k hk
    simp only [BitVec.getElem_extractLsb', BitVec.getLsbD_append]
    interval_cases k <;> simp

@[simp] theorem instOf_ofNat (i : Inst) : instOf (BitVec.ofNat 3 i.val) = some i := by
  revert i; decide

@[simp] theorem wordLenOf_code (wl : WordLen) : wordLenOf wl.code = wl := by cases wl <;> rfl

@[simp] theorem modeOf_code (m : Mode) : modeOf m.code = some m := by cases m <;> rfl

@[simp] theorem parityOf_code (p : Parity) : parityOf p.code = some p := by cases p <;> rfl

@[simp] theorem flowOf_code (f : FlowCtl) : flowOf f.code = f := by cases f <;> rfl

@[simp] theorem stopOf_code (st : StopBits) : stopOf st.code = st := by cases st <;> rfl

/-- A command's word decodes to the command (R79, R83). -/
theorem decode_encode (i : Instr) : decode (encode i) = .ok i := by
  simp only [decode, encode, Fields.ofWord_toWord]
  cases i with
  | compute => rfl
  | configure i wl m p f st =>
    simp [decodeFields, decodeConfigure, Instr.fields]
  | deconfigure i =>
    simp [decodeFields, decodeDeconfigure, Instr.fields, Fields.configZero]

end Sys2Proof

/-! SUPPORT. Everything a step of SEQ can do (10_state.md R26): for each command an inductive relation with one
constructor per way its step can go, guards included, and the lemma that the meaning answers a next state exactly
when the relation holds. Proofs about all of SEQ's steps are case analyses on these. -/

namespace Sys2Proof.Machine

/-- The number of an error code stays within the codes of R150. -/
theorem ErrCode.code_toNat_le (e : ErrCode) : e.code.toNat ≤ 4 := by cases e <;> decide

theorem hasRow_ne_idle {i : Instr} {q : SeqState} (h : hasRow i q = true) : q ≠ .idle := by
  rintro rfl
  cases i <;> simp [hasRow] at h

theorem hasRow_firstState (i : Instr) : hasRow i (firstState i) = true := by cases i <;> rfl

theorem firstState_ne_idle (i : Instr) : firstState i ≠ .idle := hasRow_ne_idle (hasRow_firstState i)

@[simp] theorem FieldVal.en_name (b : Bool) : (FieldVal.en b).name = .en := rfl

@[simp] theorem FieldVal.baudreg_name (w : Word) : (FieldVal.baudreg w).name = .baudreg := rfl

@[simp] theorem wlVal_name (wl : WordLen) : (wlVal wl).name = .wl := by cases wl <;> rfl

@[simp] theorem modeVal_name (m : Mode) : (modeVal m).name = .mode := by cases m <;> rfl

@[simp] theorem parityVal_name (p : Parity) : (parityVal p).name = .parity := by cases p <;> rfl

@[simp] theorem flowVal_name (f : FlowCtl) : (flowVal f).name = .flow := by cases f <;> rfl

@[simp] theorem stopVal_name (st : StopBits) : (stopVal st).name = .stop := rfl

/-! ## COMPUTE -/

/-- The steps of COMPUTE (R71, R96). -/
inductive ComputeStep (s : State) : State → Prop
  | accept (hq : s.seqState = .idle) : ComputeStep s (s.accept .compute)
  | fails (hq : s.seqState = .k1Compute) (hd : s.divide = .invalidBaudRate) :
      ComputeStep s (s.finish .invalidBaudRate)
  | ends (hq : s.seqState = .k1Compute) {m f : Nat} (hd : s.divide = .ok m f) :
      ComputeStep s ((s.setResult m f).finish .none)

theorem execCompute_next_iff {s t : State} : execCompute s = .next t ↔ ComputeStep s t := by
  constructor
  · intro h
    cases hq : s.seqState
    case idle => rw [execCompute_idle hq] at h; cases h; exact .accept hq
    case k1Compute =>
      rw [execCompute_k1 hq] at h
      cases h
      cases hd : s.divide with
      | ok m f => rw [computeStep_ok hd]; exact .ends hq hd
      | invalidBaudRate => rw [computeStep_fails hd]; exact .fails hq hd
    all_goals simp [execCompute, hq] at h
  · intro h
    cases h with
    | accept hq => exact execCompute_idle hq
    | fails hq hd => rw [execCompute_k1 hq, computeStep_fails hd]
    | ends hq hd => rw [execCompute_k1 hq, computeStep_ok hd]

/-! ## CONFIGURE -/

section Configure

variable {i : Inst} {wl : WordLen} {m : Mode} {p : Parity} {f : FlowCtl} {st : StopBits} {s t : State}

/-- The rows of CONFIGURE that write one field of the instance and go on: what they write, and the next row
(R113 to R119, R123). -/
def configureWrite (wl : WordLen) (m : Mode) (p : Parity) (f : FlowCtl) (st : StopBits) (s : State) :
    Option (FieldVal × SeqState) :=
  match s.seqState with
  | .c2Disable => some (.en false, .c3aWl)
  | .c3aWl => some (wlVal wl, .c3bMode)
  | .c3bMode => some (modeVal m, .c3cParity)
  | .c3cParity => some (parityVal p, .c3dFlow)
  | .c3dFlow => some (flowVal f, .c3eStop)
  | .c3eStop => some (stopVal st, .c4aClock)
  | .c4cBaudreg => some (.baudreg (baudregOf s.resMant s.resFrac), .c5Enable)
  | _ => none

theorem execConfigure_write {v : FieldVal} {q : SeqState} (h : configureWrite wl m p f st s = some (v, q)) :
    execConfigure i wl m p f st s = .next ((s.writeField i v).goto q) := by
  cases hq : s.seqState <;> simp [configureWrite, hq] at h <;> obtain ⟨rfl, rfl⟩ := h
  case c2Disable => exact execConfigure_c2 hq
  case c3aWl => exact execConfigure_c3a hq
  case c3bMode => exact execConfigure_c3b hq
  case c3cParity => exact execConfigure_c3c hq
  case c3dFlow => exact execConfigure_c3d hq
  case c3eStop => exact execConfigure_c3e hq
  case c4cBaudreg => exact execConfigure_c4c hq

/-- The steps of CONFIGURE (R71, R112 to R124). -/
inductive ConfigureStep (i : Inst) (wl : WordLen) (m : Mode) (p : Parity) (f : FlowCtl) (st : StopBits)
    (s : State) : State → Prop
  | accept (hq : s.seqState = .idle) : ConfigureStep i wl m p f st s (s.accept (.configure i wl m p f st))
  | gateOn (hq : s.seqState = .c1GateOn) : ConfigureStep i wl m p f st s ((s.gateWrite i true).goto .c2Disable)
  | write {v : FieldVal} {q : SeqState} (hw : configureWrite wl m p f st s = some (v, q)) :
      ConfigureStep i wl m p f st s ((s.writeField i v).goto q)
  | noClock (hq : s.seqState = .c4aClock) (hc : s.clockAnswer (Config.bus i) = none) :
      ConfigureStep i wl m p f st s (s.countQuery.finish .clockUnavailable)
  | clock (hq : s.seqState = .c4aClock) {hz : Word} (hc : s.clockAnswer (Config.bus i) = some hz) :
      ConfigureStep i wl m p f st s ({ s.countQuery with opClk := hz }.goto .c4bDivide)
  | outOfRange (hq : s.seqState = .c4bDivide)
      (hd : s.baudOperand = 0 ∨ s.clkOperand < 2 * s.baudOperand ∨ s.divide = .invalidBaudRate) :
      ConfigureStep i wl m p f st s (s.finish .baudOutOfRange)
  | divide (hq : s.seqState = .c4bDivide) {mant frac : Nat} (hb : s.baudOperand ≠ 0)
      (hc : 2 * s.baudOperand ≤ s.clkOperand) (hd : s.divide = .ok mant frac) :
      ConfigureStep i wl m p f st s ((s.setResult mant frac).goto .c4cBaudreg)
  | enable (hq : s.seqState = .c5Enable) :
      ConfigureStep i wl m p f st s ((s.writeField i (.en true)).finish .none)

theorem configureStep_clock (hq : s.seqState = .c4aClock) :
    ConfigureStep i wl m p f st s (clockStep (s.clockAnswer (Config.bus i)) s.countQuery) := by
  cases hc : s.clockAnswer (Config.bus i) with
  | none => exact .noClock hq hc
  | some hz => exact .clock hq hc

theorem configureStep_divide (hq : s.seqState = .c4bDivide) : ConfigureStep i wl m p f st s (divideStep s) := by
  by_cases hb : s.baudOperand = 0
  · rw [divideStep_fails (.inl hb)]; exact .outOfRange hq (.inl hb)
  by_cases hc : s.clkOperand < 2 * s.baudOperand
  · rw [divideStep_fails (.inr (.inl hc))]; exact .outOfRange hq (.inr (.inl hc))
  cases hd : s.divide with
  | invalidBaudRate => rw [divideStep_fails (.inr (.inr hd))]; exact .outOfRange hq (.inr (.inr hd))
  | ok mant frac =>
    have hc : 2 * s.baudOperand ≤ s.clkOperand := Nat.le_of_not_lt hc
    rw [divideStep_ok hb hc hd]
    exact .divide hq hb hc hd

/-- A row of the table of field writes makes that write. -/
theorem configureStep_of_write {v : FieldVal} {q : SeqState} (hw : configureWrite wl m p f st s = some (v, q))
    (h : execConfigure i wl m p f st s = .next t) : ConfigureStep i wl m p f st s t := by
  rw [execConfigure_write hw] at h
  cases h
  exact .write hw

theorem execConfigure_next_iff : execConfigure i wl m p f st s = .next t ↔ ConfigureStep i wl m p f st s t := by
  constructor
  · intro h
    cases hw : configureWrite wl m p f st s with
    | some vq => exact configureStep_of_write hw h
    | none =>
      cases hq : s.seqState <;> simp [configureWrite, hq] at hw
      case idle => rw [execConfigure_idle hq] at h; cases h; exact .accept hq
      case c1GateOn => rw [execConfigure_c1 hq] at h; cases h; exact .gateOn hq
      case c4aClock => rw [execConfigure_c4a hq] at h; cases h; exact configureStep_clock hq
      case c4bDivide => rw [execConfigure_c4b hq] at h; cases h; exact configureStep_divide hq
      case c5Enable => rw [execConfigure_c5 hq] at h; cases h; exact .enable hq
      all_goals simp [execConfigure, hq] at h
  · intro h
    cases h with
    | accept hq => exact execConfigure_idle hq
    | gateOn hq => exact execConfigure_c1 hq
    | write hw => exact execConfigure_write hw
    | noClock hq hc => rw [execConfigure_c4a hq, hc, clockStep_none]
    | clock hq hc => rw [execConfigure_c4a hq, hc, clockStep_some]
    | outOfRange hq hd => rw [execConfigure_c4b hq, divideStep_fails hd]
    | divide hq hb hc hd => rw [execConfigure_c4b hq, divideStep_ok hb hc hd]
    | enable hq => exact execConfigure_c5 hq

end Configure

/-! ## DECONFIGURE -/

/-- The steps of DECONFIGURE (R71, R141 to R143). -/
inductive DeconfigureStep (i : Inst) (s : State) : State → Prop
  | accept (hq : s.seqState = .idle) : DeconfigureStep i s (s.accept (.deconfigure i))
  | resetOn (hq : s.seqState = .x1RstAssert) : DeconfigureStep i s ((s.resetWrite i true).goto .x2RstRelease)
  | resetOff (hq : s.seqState = .x2RstRelease) : DeconfigureStep i s ((s.resetWrite i false).goto .x3GateOff)
  | gateOff (hq : s.seqState = .x3GateOff) : DeconfigureStep i s ((s.gateWrite i false).finish .none)

theorem execDeconfigure_next_iff {i : Inst} {s t : State} :
    execDeconfigure i s = .next t ↔ DeconfigureStep i s t := by
  constructor
  · intro h
    cases hq : s.seqState
    case idle => rw [execDeconfigure_idle hq] at h; cases h; exact .accept hq
    case x1RstAssert => rw [execDeconfigure_x1 hq] at h; cases h; exact .resetOn hq
    case x2RstRelease => rw [execDeconfigure_x2 hq] at h; cases h; exact .resetOff hq
    case x3GateOff => rw [execDeconfigure_x3 hq] at h; cases h; exact .gateOff hq
    all_goals simp [execDeconfigure, hq] at h
  · intro h
    cases h with
    | accept hq => exact execDeconfigure_idle hq
    | resetOn hq => exact execDeconfigure_x1 hq
    | resetOff hq => exact execDeconfigure_x2 hq
    | gateOff hq => exact execDeconfigure_x3 hq

/-! ## SEQ's turn -/

/-- SEQ waits in IDLE, or runs the command in `CMD` (R26, R27). -/
theorem seqTurn_next {s t : State} (h : s.seqTurn = .next t) :
    (s.seqState = .idle ∧ t = s) ∨ ∃ i, s.seqState ≠ .idle ∧ s.fetch = .ok i ∧ exec i s = .next t := by
  by_cases hq : s.seqState = .idle
  · rw [seqTurn_idle hq] at h
    cases h
    exact .inl ⟨hq, rfl⟩
  · cases hf : s.fetch with
    | ok i => exact .inr ⟨i, hq, rfl, seqTurn_running hq hf ▸ h⟩
    | error r => simp [State.seqTurn, hf] at h

end Sys2Proof.Machine

/-! SUPPORT. Everything a move of the environment, of the host, of any agent can do (10_state.md R21, R62): one
access to one instance, a word of the clock tree, or a change of the environment's own state that keeps the transfer
cursors inside their buffers (60_exceptions.md R165, R167). -/

namespace Sys2Proof.Machine

/-! ## The transfer cursors -/

/-- The cursors of an environment's transfers are inside their buffers, the two clauses of `StateInv` (R165, R169). -/
structure Env.CursorsInside (e : Env) : Prop where
  handle : ∀ i h, e.handles.get i = some h → h.xfer.cursor ≤ h.xfer.buf.length
  blocking : ∀ i b, e.blocking.get i = some b → b.xfer.cursor ≤ b.xfer.buf.length

/-- Only the Handles and the blocking calls matter to it. -/
theorem Env.CursorsInside.congr {e e' : Env} (h : e.CursorsInside) (hh : e'.handles = e.handles)
    (hb : e'.blocking = e.blocking) : e'.CursorsInside :=
  ⟨hh ▸ h.handle, hb ▸ h.blocking⟩

theorem Env.CursorsInside.setHandle {e : Env} (h : e.CursorsInside) (i : Inst) {hd : Option Handle}
    (hx : ∀ x, hd = some x → x.xfer.cursor ≤ x.xfer.buf.length) :
    Env.CursorsInside { e with handles := e.handles.set i hd } := by
  refine ⟨fun j x hj => ?_, h.blocking⟩
  simp only [PerInst.get_set] at hj
  split at hj
  · exact hx x hj
  · exact h.handle j x hj

theorem Env.CursorsInside.setBlocking {e : Env} (h : e.CursorsInside) (i : Inst) {b : Blocking}
    (hb : b.xfer.cursor ≤ b.xfer.buf.length) :
    Env.CursorsInside { e with blocking := e.blocking.set i (some b) } := by
  refine ⟨h.handle, fun j x hj => ?_⟩
  simp only [PerInst.get_set] at hj
  split at hj
  · cases hj; exact hb
  · exact h.blocking j x hj

theorem Env.CursorsInside.putTransfer {e : Env} (h : e.CursorsInside) (i : Inst) (hd : Handle) {x : Transfer}
    (hx : x.cursor ≤ x.buf.length) : (e.putTransfer i hd x).CursorsInside :=
  h.setHandle i (by rintro _ ⟨⟩; exact hx)

theorem Env.CursorsInside.arm {e : Env} (h : e.CursorsInside) (i : Inst) (dir : Direction) (on : Bool) :
    (e.arm i dir on).CursorsInside := by
  cases dir <;> exact h.congr rfl rfl

theorem Transfer.started_cursor_le (dir : Direction) (buf : List Byte) :
    (Transfer.started dir buf).cursor ≤ (Transfer.started dir buf).buf.length := by
  cases dir <;> exact Nat.zero_le _

/-- Normal progress of an interrupt event keeps the cursors inside (R167). -/
theorem Env.CursorsInside.irqProgress {e : Env} (h : e.CursorsInside) {i : Inst} {hd : Handle}
    (hi : e.handles.get i = some hd) (rx : Byte) : (e.irqProgress i hd rx).CursorsInside := by
  have hx := hd.xfer.progress_cursor_le rx (h.handle i hd hi)
  have hw := (h.putTransfer i hd hx).congr (e' := (e.putTransfer i hd (hd.xfer.progress rx).1).write i
    (hd.xfer.progress rx).2) rfl rfl
  unfold Env.irqProgress
  dsimp only
  split
  · exact (hw.arm i _ false).congr rfl rfl
  · exact hw

/-- So does an abort (R168). -/
theorem Env.CursorsInside.irqError {e : Env} (h : e.CursorsInside) {i : Inst} {hd : Handle}
    (hi : e.handles.get i = some hd) (flags : ErrorFlags) : (e.irqError i hd flags).CursorsInside :=
  (h.putTransfer i hd (hd.xfer.aborted_cursor_le e.picks (h.handle i hd hi))).congr rfl rfl

/-- So does a poll (R169). -/
theorem Env.CursorsInside.pollStep {e : Env} (h : e.CursorsInside) {i : Inst} {b : Blocking}
    (hi : e.blocking.get i = some b) (ready : Bool) (rx : Byte) : (e.pollStep i b ready rx).CursorsInside := by
  have hb := h.blocking i b hi
  unfold Env.pollStep
  split
  · exact (h.setBlocking i (b := { b with xfer := (b.xfer.progress rx).1 })
      (b.xfer.progress_cursor_le rx hb)).congr rfl rfl
  · split
    · exact h
    · exact (h.setBlocking i (b := { b with xfer := { b.xfer with status := .error } }) hb).congr rfl rfl
    · exact h.setBlocking i hb

/-! ## The environment's moves -/

/-- A move that changes the environment's own state and nothing else, and keeps the cursors inside. -/
def EnvOnly (s t : State) : Prop :=
  ∃ e, t = { s with env := e } ∧ (s.env.CursorsInside → e.CursorsInside)

theorem EnvOnly.refl (s : State) : EnvOnly s s := ⟨s.env, rfl, id⟩

theorem setEnabled_envOnly {s t : State} {line : Nat} {b : Bool} (h : s.setEnabled line b = .next t) :
    EnvOnly s t := by
  unfold State.setEnabled at h
  split at h <;> cases h
  exact ⟨_, rfl, fun hc => hc.congr rfl rfl⟩

theorem setPriority_envOnly {s t : State} {line priority : Nat} (h : s.setPriority line priority = .next t) :
    EnvOnly s t := by
  unfold State.setPriority at h
  split at h
  · cases h
  split at h <;> cases h
  exact ⟨_, rfl, fun hc => hc.congr rfl rfl⟩

theorem bindHandle_envOnly {s t : State} {i : Inst} {cfg : Configuration} (h : s.bindHandle i cfg = .next t) :
    EnvOnly s t := by
  unfold State.bindHandle at h
  split at h <;> cases h
  exact ⟨_, rfl, fun hc => hc.setHandle i (by rintro _ ⟨⟩; exact Nat.le_refl 0)⟩

theorem destroyHandle_envOnly {s t : State} {i : Inst} (h : s.destroyHandle i = .next t) : EnvOnly s t := by
  unfold State.destroyHandle at h
  split at h
  · cases h
  split at h <;> cases h
  exact ⟨_, rfl, fun hc => hc.setHandle i (by rintro _ ⟨⟩)⟩

theorem clear_envOnly {s t : State} {i : Inst} (h : s.clear i = .next t) : EnvOnly s t := by
  unfold State.clear at h
  split at h
  · cases h
  rename_i hd hi
  split at h <;> cases h
  exact ⟨_, rfl, fun hc => hc.putTransfer i hd (x := { hd.xfer with status := .idle }) (hc.handle i hd hi)⟩

theorem start_envOnly {s t : State} {i : Inst} {dir : Direction} {buf : List Byte}
    (h : s.start i dir buf = .next t) : EnvOnly s t := by
  unfold State.start at h
  split at h
  · cases h
  rename_i hd hi
  split at h
  · cases h; exact ⟨_, rfl, fun hc => hc.congr rfl rfl⟩
  split at h
  · cases h
  split at h <;> cases h
  exact ⟨_, rfl, fun hc =>
    ((hc.putTransfer i hd (Transfer.started_cursor_le dir buf)).arm i dir true).congr rfl rfl⟩

theorem block_envOnly {s t : State} {i : Inst} {dir : Direction} {buf : List Byte} {bound : Option Nat}
    (h : s.block i dir buf bound = .next t) : EnvOnly s t := by
  unfold State.block at h
  split at h
  · cases h
  split at h <;> cases h
  exact ⟨_, rfl, fun hc =>
    (hc.setBlocking i (b := ⟨Transfer.started dir buf, bound⟩) (Transfer.started_cursor_le dir buf)).congr rfl rfl⟩

theorem irq_envOnly {s t : State} {i : Inst} {flags : ErrorFlags} {rx : Byte} (h : s.irq i flags rx = .next t) :
    EnvOnly s t := by
  obtain rfl | ⟨hd, -, hi, -, rfl⟩ := irq_next h
  · exact EnvOnly.refl t
  · refine ⟨_, rfl, fun hc => ?_⟩
    split
    · exact hc.irqProgress hi rx
    · exact hc.irqError hi flags

theorem poll_envOnly {s t : State} {i : Inst} {ready : Bool} {rx : Byte} (h : s.poll i ready rx = .next t) :
    EnvOnly s t := by
  obtain ⟨b, hi, -, rfl⟩ := poll_next h
  exact ⟨_, rfl, fun hc => hc.pollStep hi _ rx⟩

/-- What a move of the environment can do: one access to an instance no command works on (R198), a word of the clock
tree, or a change of its own state. -/
inductive EnvStep (s : State) : EnvAction → State → Prop
  | writeField {i : Inst} (hw : s.workingOn ≠ some i) (hg : s.gate.get i = true) (v : FieldVal) :
      EnvStep s (.writeField i v) (s.writeField i v)
  | writeGate {i : Inst} (hw : s.workingOn ≠ some i) (b : Bool) : EnvStep s (.writeGate i b) (s.gateWrite i b)
  | writeReset {i : Inst} (hw : s.workingOn ≠ some i) (b : Bool) : EnvStep s (.writeReset i b) (s.resetWrite i b)
  | setClock (bus : Bus) (answer : Option (Option Word)) :
      EnvStep s (.setClock bus answer) (s.setClock bus answer)
  | own {a : EnvAction} {t : State} (h : EnvOnly s t) : EnvStep s a t

theorem envMove_next {s t : State} {a : EnvAction} (h : s.envMove a = .next t) : EnvStep s a t := by
  cases a <;> simp only [State.envMove] at h
  case writeField i v =>
    obtain ⟨hw, h⟩ := exclusive_next h
    split at h <;> cases h
    exact .writeField hw ‹_› v
  case writeGate i b =>
    obtain ⟨hw, h⟩ := exclusive_next h
    cases h
    exact .writeGate hw b
  case writeReset i b =>
    obtain ⟨hw, h⟩ := exclusive_next h
    cases h
    exact .writeReset hw b
  case setClock bus answer => cases h; exact .setClock bus answer
  case setEnabled => exact .own (setEnabled_envOnly h)
  case setPriority => exact .own (setPriority_envOnly h)
  case bindHandle => exact .own (bindHandle_envOnly h)
  case destroyHandle => exact .own (destroyHandle_envOnly h)
  case start => exact .own (start_envOnly (exclusive_next h).2)
  case clear => exact .own (clear_envOnly h)
  case irq => exact .own (irq_envOnly h)
  case block => exact .own (block_envOnly (exclusive_next h).2)
  case poll => exact .own (poll_envOnly h)

/-! ## The host's writes -/

theorem writeCmd_next {s t : State} {w : CmdWord} (h : s.writeCmd w = .next t) :
    t = s ∨ s.status.busy = false ∧ t = s.issue w := by
  unfold State.writeCmd at h
  split at h
  · cases h; exact .inl rfl
  rename_i hb
  have hb : s.status.busy = false := by simpa using hb
  split at h
  · cases h; exact .inr ⟨hb, rfl⟩
  split at h
  · cases h; exact .inr ⟨hb, rfl⟩
  split at h <;> cases h
  exact .inr ⟨hb, rfl⟩

/-- What a write of the host can do: nothing, the store of an operand, or the issue of a word (R23, R71, R73). -/
inductive HostStep (s : State) : Nat → Word → State → Prop
  | ignored {offset : Nat} {v : Word} : HostStep s offset v s
  | opClk {v : Word} (hb : s.status.busy = false) : HostStep s 0x04 v { s with opClk := v }
  | opBaud {v : Word} (hb : s.status.busy = false) : HostStep s 0x08 v { s with opBaud := v }
  | issue {v : Word} (hb : s.status.busy = false) : HostStep s 0x00 v (s.issue (v.setWidth 16))

theorem hostWrite_cmd (s : State) (v : Word) : s.hostWrite 0x00 v = s.writeCmd (v.setWidth 16) := rfl

theorem hostWrite_opClk (s : State) (v : Word) :
    s.hostWrite 0x04 v = .next (if s.status.busy then s else { s with opClk := v }) := rfl

theorem hostWrite_opBaud (s : State) (v : Word) :
    s.hostWrite 0x08 v = .next (if s.status.busy then s else { s with opBaud := v }) := rfl

/-- A write at any other offset is ignored (R51, R60). -/
theorem hostWrite_other {offset : Nat} (h0 : offset ≠ 0x00) (h4 : offset ≠ 0x04) (h8 : offset ≠ 0x08) (s : State)
    (v : Word) : s.hostWrite offset v = .next s := by
  unfold State.hostWrite blockRegAt
  rw [if_neg h0, if_neg h4, if_neg h8]
  split_ifs <;> rfl

theorem hostWrite_next {s t : State} {offset : Nat} {v : Word} (h : s.hostWrite offset v = .next t) :
    HostStep s offset v t := by
  by_cases h0 : offset = 0x00
  · subst h0
    rw [hostWrite_cmd] at h
    obtain rfl | ⟨hb, rfl⟩ := writeCmd_next h
    · exact .ignored
    · exact .issue hb
  by_cases h4 : offset = 0x04
  · subst h4
    rw [hostWrite_opClk] at h
    cases h
    split
    · exact .ignored
    · exact .opClk (by simpa using ‹¬ s.status.busy = true›)
  by_cases h8 : offset = 0x08
  · subst h8
    rw [hostWrite_opBaud] at h
    cases h
    split
    · exact .ignored
    · exact .opBaud (by simpa using ‹¬ s.status.busy = true›)
  rw [hostWrite_other h0 h4 h8] at h
  cases h
  exact .ignored

end Sys2Proof.Machine

/-! SUPPORT. The invariant of the state and the reset lines' own invariant (10_state.md R41), as rules: from which
facts a state meets them, and that SEQ, the host, the environment and the power-on reset keep them. -/

namespace Sys2Proof.Machine

/-! ## Held instances -/

/-- A held instance holds its reset value, the clause `held` of `StateInv` (R37). -/
def State.HeldAtReset (s : State) : Prop := ∀ i, s.rst.get i = true → s.u.get i = usartReset

theorem State.HeldAtReset.congr {s t : State} (h : s.HeldAtReset) (hr : t.rst = s.rst) (hu : t.u = s.u) :
    t.HeldAtReset := by
  intro i hi
  rw [hr] at hi
  rw [hu]
  exact h i hi

theorem State.HeldAtReset.writeField {s : State} (h : s.HeldAtReset) (i : Inst) (v : FieldVal) :
    (s.writeField i v).HeldAtReset := by
  cases hr : s.rst.get i with
  | true => rw [writeField_held hr]; exact h
  | false =>
    intro j hj
    rw [State.writeField_rst] at hj
    have hij : i ≠ j := by rintro rfl; simp [hr] at hj
    rw [writeField_get_ne s hij]
    exact h j hj

theorem State.HeldAtReset.resetWrite {s : State} (h : s.HeldAtReset) (i : Inst) (b : Bool) :
    (s.resetWrite i b).HeldAtReset := by
  intro j hj
  by_cases hij : i = j
  · subst hij
    obtain rfl : b = true := by simpa using hj
    simp
  · obtain ⟨hu, -, hr⟩ := access_other s (.reset i b) j (by rintro ⟨⟩; exact hij rfl)
    exact hu.trans (h j (hr ▸ hj))

/-! ## When a state meets the invariant -/

theorem StateInv.heldAtReset {s : State} (h : StateInv s) : s.HeldAtReset := h.held

theorem StateInv.cursorsInside {s : State} (h : StateInv s) : s.env.CursorsInside :=
  ⟨h.cursor_le, h.blocking_cursor_le⟩

theorem StateInv.idle_of_not_busy {s : State} (h : StateInv s) (hb : s.status.busy = false) : s.seqState = .idle :=
  h.idle_iff.2 hb

theorem StateInv.busy_of_not_idle {s : State} (h : StateInv s) (hq : s.seqState ≠ .idle) : s.status.busy = true := by
  cases hb : s.status.busy with
  | true => rfl
  | false => exact absurd (h.idle_of_not_busy hb) hq

theorem StateInv.row_of_fetch {s : State} {i : Instr} (h : StateInv s) (hq : s.seqState ≠ .idle)
    (hf : s.fetch = .ok i) : hasRow i s.seqState = true := by
  simpa [State.inRow, hf] using h.in_row hq

theorem workingOn_congr {s t : State} (hc : t.cmd = s.cmd) (hq : t.seqState = s.seqState) :
    t.workingOn = s.workingOn := by
  simp only [State.workingOn, State.fetch, hc, hq]

/-- An idle state has only its flags, its held instances and its cursors to answer for. -/
theorem stateInv_of_idle {t : State} (hq : t.seqState = .idle) (hb : t.status.busy = false)
    (he : t.status.err.toNat ≤ 4) (hheld : t.HeldAtReset) (hcur : t.env.CursorsInside) : StateInv t where
  idle_iff := by simp [hq, hb]
  busy_clear := by simp [hb]
  err_le := he
  in_row := by simp [hq]
  held := hheld
  gated := by simp [workingOn_idle hq]
  disabled := by simp [workingOn_idle hq]
  cursor_le := hcur.handle
  blocking_cursor_le := hcur.blocking

/-- The end of a command leaves a good idle state (R72, R150). -/
theorem stateInv_finish {t : State} (hheld : t.HeldAtReset) (hcur : t.env.CursorsInside) (e : ErrCode) :
    StateInv (t.finish e) :=
  stateInv_of_idle rfl rfl (ErrCode.code_toNat_le e) (hheld.congr rfl rfl) hcur

/-- A state in a row of its command has to have the flags of a command in progress, and for the rows after C1 and C2
the gate on and the instance disabled. -/
theorem stateInv_of_running {t : State} {i : Instr} (hf : t.fetch = .ok i) (hrow : hasRow i t.seqState = true)
    (hs : t.status = Status.accepted) (hheld : t.HeldAtReset) (hcur : t.env.CursorsInside)
    (hgate : ∀ k, instrInst i = some k → t.seqState.afterGateOn = true → t.gate.get k = true)
    (hen : ∀ k, instrInst i = some k → t.seqState.afterDisable = true → (t.u.get k).en = false) : StateInv t := by
  have hq : t.seqState ≠ .idle := hasRow_ne_idle hrow
  have hw : t.workingOn = instrInst i := workingOn_running hq hf
  exact {
    idle_iff := by simp [hq, hs, Status.accepted]
    busy_clear := by simp [hs, Status.accepted]
    err_le := by simp [hs, Status.accepted]
    in_row := fun _ => by simpa [State.inRow, hf] using hrow
    held := hheld
    gated := fun k hk => hgate k (hw ▸ hk)
    disabled := fun k hk => hen k (hw ▸ hk)
    cursor_le := hcur.handle
    blocking_cursor_le := hcur.blocking }

/-- While a command is in progress the flags are those of its acceptance (R25, R71). -/
theorem StateInv.status_accepted {s : State} (h : StateInv s) (hq : s.seqState ≠ .idle) :
    s.status = Status.accepted := by
  have hb := h.busy_of_not_idle hq
  obtain ⟨hd, he⟩ := h.busy_clear hb
  cases hs : s.status
  simp_all [Status.accepted]

/-- A move from outside: it leaves the block's registers alone, and the instance a command works on (R198). -/
theorem StateInv.of_outside {s t : State} (h : StateInv s) (hc : t.cmd = s.cmd) (hs : t.status = s.status)
    (hq : t.seqState = s.seqState) (hheld : t.HeldAtReset) (hcur : t.env.CursorsInside)
    (hother : ∀ k, s.workingOn = some k → t.u.get k = s.u.get k ∧ t.gate.get k = s.gate.get k) : StateInv t := by
  have hw : t.workingOn = s.workingOn := workingOn_congr hc hq
  exact {
    idle_iff := by rw [hq, hs]; exact h.idle_iff
    busy_clear := by rw [hs]; exact h.busy_clear
    err_le := by rw [hs]; exact h.err_le
    in_row := by simpa only [State.inRow, State.fetch, hc, hq] using h.in_row
    held := hheld
    gated := fun k hk ha => by
      rw [hw] at hk
      rw [(hother k hk).2]
      exact h.gated k hk (hq ▸ ha)
    disabled := fun k hk ha => by
      rw [hw] at hk
      rw [(hother k hk).1]
      exact h.disabled k hk (hq ▸ ha)
    cursor_le := hcur.handle
    blocking_cursor_le := hcur.blocking }

/-- Taking a move off the agenda (R62). -/
theorem StateInv.setAgenda {s : State} (h : StateInv s) (l : List Event) : StateInv { s with agenda := l } :=
  h.of_outside rfl rfl rfl (h.heldAtReset.congr rfl rfl) h.cursorsInside fun _ _ => ⟨rfl, rfl⟩

/-! ## SEQ keeps the invariant -/

theorem computeStep_keepsInv {s t : State} (h : StateInv s) (hq : s.seqState ≠ .idle) (hs : ComputeStep s t) :
    StateInv t := by
  cases hs with
  | accept hq' => exact absurd hq' hq
  | fails => exact stateInv_finish h.heldAtReset h.cursorsInside _
  | @ends _ m f _ => exact stateInv_finish (t := s.setResult m f) (h.heldAtReset.congr rfl rfl) h.cursorsInside _

theorem deconfigureStep_keepsInv {i : Inst} {s t : State} (h : StateInv s) (hq : s.seqState ≠ .idle)
    (hf : s.fetch = .ok (.deconfigure i)) (hs : DeconfigureStep i s t) : StateInv t := by
  have hst := h.status_accepted hq
  cases hs with
  | accept hq' => exact absurd hq' hq
  | resetOn =>
    exact stateInv_of_running hf rfl hst ((h.heldAtReset.resetWrite i true).congr rfl rfl) h.cursorsInside
      (by simp [SeqState.afterGateOn]) (by simp [SeqState.afterDisable, SeqState.afterGateOn])
  | resetOff =>
    exact stateInv_of_running hf rfl hst ((h.heldAtReset.resetWrite i false).congr rfl rfl) h.cursorsInside
      (by simp [SeqState.afterGateOn]) (by simp [SeqState.afterDisable, SeqState.afterGateOn])
  | gateOff => exact stateInv_finish (t := s.gateWrite i false) (h.heldAtReset.congr rfl rfl) h.cursorsInside _

section Configure

variable {i : Inst} {wl : WordLen} {m : Mode} {p : Parity} {f : FlowCtl} {st : StopBits} {s t : State}

/-- The field-writing rows come after C1, and after C2 but for C2 itself, which writes EN 0; so do their successors
(R112, R113). -/
theorem configureWrite_rows {v : FieldVal} {q : SeqState} (hw : configureWrite wl m p f st s = some (v, q)) :
    s.seqState.afterGateOn = true ∧ hasRow (.configure i wl m p f st) q = true ∧
      (v = .en false ∨ v.name ≠ .en ∧ s.seqState.afterDisable = true) := by
  cases hq : s.seqState <;> simp [configureWrite, hq] at hw <;> obtain ⟨rfl, rfl⟩ := hw
  case c2Disable => exact ⟨rfl, rfl, .inl rfl⟩
  all_goals exact ⟨rfl, rfl, .inr ⟨by simp, rfl⟩⟩

/-- The write of one field leaves every other field of the instance (R54). -/
theorem FieldVal.apply_frame (v : FieldVal) (x : Usart) :
    (v.name ≠ .en → (v.apply x).en = x.en) ∧ (v.name ≠ .wl → (v.apply x).wl = x.wl) ∧
      (v.name ≠ .mode → (v.apply x).txen = x.txen ∧ (v.apply x).rxen = x.rxen) ∧
      (v.name ≠ .parity → (v.apply x).paren = x.paren ∧ (v.apply x).parsel = x.parsel) ∧
      (v.name ≠ .flow → (v.apply x).rtsen = x.rtsen ∧ (v.apply x).ctsen = x.ctsen) ∧
      (v.name ≠ .stop → (v.apply x).stop = x.stop) ∧ (v.name ≠ .baudreg → (v.apply x).baudreg = x.baudreg) ∧
      (v.name ≠ .other → (v.apply x).other = x.other) := by
  cases v <;> simp [FieldVal.apply, FieldVal.name]

/-- After the write of EN 0, and after a write of another field of a disabled instance, the instance is disabled; a
held one is disabled by its reset value (R37, R113). -/
theorem writeField_disabled {v : FieldVal} (hheld : s.HeldAtReset)
    (h : v = .en false ∨ v.name ≠ .en ∧ (s.u.get i).en = false) : ((s.writeField i v).u.get i).en = false := by
  rw [writeField_get_self]
  split
  · rw [hheld i ‹_›]; rfl
  · obtain rfl | ⟨hn, he⟩ := h
    · rfl
    · rw [(v.apply_frame _).1 hn, he]

/-- A step of CONFIGURE to a later row: the gate is on and the instance disabled where they have to be. -/
theorem stateInv_configure_goto {q : SeqState} (hf : t.fetch = .ok (.configure i wl m p f st))
    (hrow : hasRow (.configure i wl m p f st) q = true) (hs : t.status = Status.accepted) (hheld : t.HeldAtReset)
    (hcur : t.env.CursorsInside) (hgate : t.gate.get i = true)
    (hen : q.afterDisable = true → (t.u.get i).en = false) : StateInv (t.goto q) :=
  stateInv_of_running (i := .configure i wl m p f st) hf hrow hs (hheld.congr rfl rfl) hcur
    (by rintro k ⟨⟩ -; exact hgate) (by rintro k ⟨⟩ hq; exact hen hq)

theorem configureStep_keepsInv (h : StateInv s) (hq : s.seqState ≠ .idle)
    (hf : s.fetch = .ok (.configure i wl m p f st)) (hs : ConfigureStep i wl m p f st s t) : StateInv t := by
  have hst := h.status_accepted hq
  have hheld := h.heldAtReset
  have hcur := h.cursorsInside
  have hw : s.workingOn = some i := workingOn_running hq hf
  have hgate := h.gated i hw
  have hen := h.disabled i hw
  cases hs with
  | accept hq' => exact absurd hq' hq
  | gateOn => exact stateInv_configure_goto hf rfl hst (hheld.congr rfl rfl) hcur (by simp) nofun
  | write hv =>
    obtain ⟨hag, hrow, hval⟩ := configureWrite_rows (i := i) hv
    exact stateInv_configure_goto hf hrow hst (hheld.writeField i _) hcur (hgate hag) fun _ =>
      writeField_disabled hheld (hval.imp_right fun ⟨hn, ha⟩ => ⟨hn, hen ha⟩)
  | noClock => exact stateInv_finish (t := s.countQuery) (hheld.congr rfl rfl) hcur _
  | clock hq' =>
    exact stateInv_configure_goto hf rfl hst (hheld.congr rfl rfl) hcur (hgate (by rw [hq']; rfl))
      fun _ => hen (by rw [hq']; rfl)
  | outOfRange => exact stateInv_finish hheld hcur _
  | divide hq' =>
    exact stateInv_configure_goto hf rfl hst (hheld.congr rfl rfl) hcur (hgate (by rw [hq']; rfl))
      fun _ => hen (by rw [hq']; rfl)
  | enable => exact stateInv_finish (hheld.writeField i _) hcur _

end Configure

theorem exec_keepsInv {i : Instr} {s t : State} (h : StateInv s) (hq : s.seqState ≠ .idle) (hf : s.fetch = .ok i)
    (hs : exec i s = .next t) : StateInv t := by
  cases i with
  | compute => exact computeStep_keepsInv h hq (execCompute_next_iff.1 hs)
  | configure => exact configureStep_keepsInv h hq hf (execConfigure_next_iff.1 hs)
  | deconfigure => exact deconfigureStep_keepsInv h hq hf (execDeconfigure_next_iff.1 hs)

theorem seqTurn_keepsInv {s t : State} (h : StateInv s) (hs : s.seqTurn = .next t) : StateInv t := by
  obtain ⟨-, rfl⟩ | ⟨i, hq, hf, hs⟩ := seqTurn_next hs
  · exact h
  · exact exec_keepsInv h hq hf hs

/-! ## The other agents keep it -/

/-- The issue of a word to an idle block: a command in its first row, or the block idle with the refusal's flags
(R71). -/
theorem issue_keepsInv {s : State} (h : StateInv s) (hb : s.status.busy = false) (w : CmdWord) :
    StateInv (s.issue w) := by
  cases hd : decode w with
  | ok i =>
    rw [issue_ok hd]
    have hfirst : (firstState i).afterGateOn = false ∧ (firstState i).afterDisable = false := by
      cases i <;> exact ⟨rfl, rfl⟩
    exact stateInv_of_running (i := i) hd (hasRow_firstState i) rfl (h.heldAtReset.congr rfl rfl) h.cursorsInside
      (by simp [hfirst]) (by simp [hfirst])
  | error r =>
    rw [issue_error hd]
    exact stateInv_of_idle (h.idle_of_not_busy hb) rfl (ErrCode.code_toNat_le _) (h.heldAtReset.congr rfl rfl) h.cursorsInside

theorem hostStep_keepsInv {s t : State} {offset : Nat} {v : Word} (h : StateInv s) (hs : HostStep s offset v t) :
    StateInv t := by
  have hheld := h.heldAtReset
  cases hs with
  | ignored => exact h
  | opClk => exact h.of_outside rfl rfl rfl (hheld.congr rfl rfl) h.cursorsInside fun _ _ => ⟨rfl, rfl⟩
  | opBaud => exact h.of_outside rfl rfl rfl (hheld.congr rfl rfl) h.cursorsInside fun _ _ => ⟨rfl, rfl⟩
  | issue hb => exact issue_keepsInv h hb _

theorem envStep_keepsInv {s t : State} {a : EnvAction} (h : StateInv s) (hs : EnvStep s a t) : StateInv t := by
  have hheld := h.heldAtReset
  have hcur := h.cursorsInside
  cases hs with
  | @writeField i hw _ v =>
    exact h.of_outside rfl rfl rfl (hheld.writeField i v) hcur fun k hk =>
      ⟨writeField_get_ne s (by rintro rfl; exact hw hk) v, rfl⟩
  | @writeGate i hw b =>
    exact h.of_outside rfl rfl rfl (hheld.congr rfl rfl) hcur fun k hk =>
      ⟨rfl, PerInst.get_set_ne _ (by rintro rfl; exact hw hk) b⟩
  | @writeReset i hw b =>
    exact h.of_outside rfl rfl rfl (hheld.resetWrite i b) hcur fun k hk =>
      ⟨(access_other s (.reset i b) k (by rintro ⟨⟩; exact hw hk)).1, rfl⟩
  | setClock bus answer =>
    cases bus <;>
      exact h.of_outside rfl rfl rfl (hheld.congr rfl rfl) hcur fun _ _ => ⟨rfl, rfl⟩
  | own hown =>
    obtain ⟨e, rfl, hkeep⟩ := hown
    exact h.of_outside rfl rfl rfl (hheld.congr rfl rfl) (hkeep hcur) fun _ _ => ⟨rfl, rfl⟩

theorem reset_heldAtReset : State.reset.HeldAtReset := fun i _ => by simp [State.reset]

theorem reset_cursorsInside : Env.reset.CursorsInside :=
  ⟨by simp [Env.reset], by simp [Env.reset]⟩

theorem powerOn_keepsInv {s : State} (h : StateInv s) : StateInv s.powerOn :=
  stateInv_of_idle rfl rfl (Nat.zero_le 4) (reset_heldAtReset.congr rfl rfl) h.cursorsInside

theorem move_keepsInv {s t : State} {e : Event} (h : StateInv s) (hs : s.move e = .next t) : StateInv t := by
  cases e with
  | hostWrite offset v => exact hostStep_keepsInv h (hostWrite_next hs)
  | hostRead offset => cases hs; exact h
  | seq => exact seqTurn_keepsInv h hs
  | env a => exact envStep_keepsInv h (envMove_next hs)
  | powerOn => cases hs; exact powerOn_keepsInv h

/-- Settles O41: SEQ, the host, the environment and the power-on reset each keep the invariant. -/
theorem stepKeepsInv : Obligations.StepKeepsInv := by
  intro s t h hs
  cases ha : s.agenda with
  | nil => exact seqTurn_keepsInv h (step_nil ha ▸ hs)
  | cons e rest => exact move_keepsInv (h.setAgenda rest) (step_cons ha ▸ hs)

/-- Settles O42: the reset state is idle with clear flags, released lines and no transfer. -/
theorem resetMeetsInv : Obligations.ResetMeetsInv :=
  ⟨stateInv_of_idle rfl rfl (by decide) reset_heldAtReset reset_cursorsInside,
    fun i hi => by simp [State.reset] at hi⟩

end Sys2Proof.Machine

/-! The statements about single agents' moves: what the environment and the host leave alone, the command
the machine runs, and when IDLE is left (10_state.md R20 to R27, 20_memory.md R51). -/

namespace Sys2Proof.Machine

/-- Settles O48: each kind of environment move spares the block's registers. -/
theorem environmentLeavesTheBlock : Obligations.EnvironmentLeavesTheBlock := by
  intro s t a h
  cases envMove_next h with
  | writeField => exact ⟨rfl, rfl, rfl, rfl, rfl, rfl, rfl, rfl⟩
  | writeGate => exact ⟨rfl, rfl, rfl, rfl, rfl, rfl, rfl, rfl⟩
  | writeReset => exact ⟨rfl, rfl, rfl, rfl, rfl, rfl, rfl, rfl⟩
  | setClock bus => cases bus <;> exact ⟨rfl, rfl, rfl, rfl, rfl, rfl, rfl, rfl⟩
  | own hown =>
    obtain ⟨e, rfl, -⟩ := hown
    exact ⟨rfl, rfl, rfl, rfl, rfl, rfl, rfl, rfl⟩

/-- Settles O8: while BUSY is 0 the operand writes of the host are not ignored. -/
theorem operandWritesLand : Obligations.OperandWritesLand := by
  intro s v rest hb
  refine ⟨fun ha => ?_, fun ha => ?_⟩
  · rw [step_cons ha]
    simp [State.move, hostWrite_opClk, hb]
  · rw [step_cons ha]
    simp [State.move, hostWrite_opBaud, hb]

/-- The fetch word of a command is its issue to an idle block (R71, log entry 7). -/
theorem withFetchWord_encode (s : State) (i : Instr) :
    s.withFetchWord 16 (encode i).toNat =
      State.accept { s with agenda := [], seqState := .idle, cmd := encode i } i := by
  have hw : BitVec.ofNat 16 ((encode i).toNat % 2 ^ 16) = encode i := by
    rw [Nat.mod_eq_of_lt (encode i).isLt, BitVec.ofNat_toNat, BitVec.setWidth_eq]
  rw [State.withFetchWord, hw, issue_ok (decode_encode i)]

/-- Settles O9: SEQ's turn is the `exec` of the command fetched from `CMD`, and the fetch word puts it there. -/
theorem stepRunsTheDecodedCommand : Obligations.StepRunsTheDecodedCommand := by
  refine ⟨fun s i hq hd => ⟨fun ha => ?_, fun rest ha => ?_⟩, fun s hq ha => ?_, fun s i => ?_⟩
  · rw [step_nil ha, seqTurn_running hq hd]
  · rw [step_cons ha]
    exact seqTurn_running (s := { s with agenda := rest }) hq hd
  · rw [step_nil ha, seqTurn_idle hq]
  · rw [withFetchWord_encode, step_nil rfl]
    exact seqTurn_running (firstState_ne_idle i) (decode_encode i)

/-- A write of the host takes an idle block out of IDLE only by issuing a legal word (R71). -/
theorem hostStep_leaves_idle {s t : State} {offset : Nat} {v : Word} (hs : HostStep s offset v t)
    (hq : s.seqState = .idle) (ht : t.seqState ≠ .idle) :
    offset = 0x00 ∧ s.status.busy = false ∧
      ∃ i, decode (v.setWidth 16) = .ok i ∧ t.cmd = v.setWidth 16 ∧ t.seqState = firstState i := by
  cases hs with
  | ignored => exact absurd hq ht
  | opClk => exact absurd hq ht
  | opBaud => exact absurd hq ht
  | issue hb =>
    cases hd : decode (v.setWidth 16) with
    | ok i =>
      rw [issue_ok hd]
      exact ⟨rfl, hb, i, rfl, rfl, rfl⟩
    | error r =>
      rw [issue_error hd] at ht
      exact absurd hq ht

/-- Settles O11: no other agent's move takes the block out of IDLE. -/
theorem onlyAcceptanceLeavesIdle : Obligations.OnlyAcceptanceLeavesIdle := by
  intro s t hq hs ht
  have waits : ∀ {r : State}, r.seqState = .idle → r.seqTurn ≠ .next t := by
    intro r hr h
    rw [seqTurn_idle hr] at h
    cases h
    exact ht hr
  cases ha : s.agenda with
  | nil => exact absurd (step_nil ha ▸ hs) (waits hq)
  | cons e rest =>
    rw [step_cons ha] at hs
    cases e with
    | hostWrite offset v =>
      obtain ⟨rfl, hb, i, hd, hc, hf⟩ := hostStep_leaves_idle (hostWrite_next hs) hq ht
      exact ⟨v, rest, i, rfl, hb, hd, hc, hf⟩
    | hostRead offset => cases hs; exact absurd hq ht
    | seq => exact absurd hs (waits hq)
    | env a =>
      obtain ⟨-, -, -, -, -, -, hq', -⟩ := environmentLeavesTheBlock _ _ _ hs
      exact absurd (hq'.trans hq) ht
    | powerOn => cases hs; exact absurd rfl ht

end Sys2Proof.Machine

/-! The statements about SEQ's steps: the successor table (10_state.md R26), and what the steps of CONFIGURE
and DECONFIGURE leave alone (10_state.md R42, 41_configure.md R110, 42_deconfigure.md R140). -/

namespace Sys2Proof.Machine

section Configure

variable {i : Inst} {wl : WordLen} {m : Mode} {p : Parity} {f : FlowCtl} {st : StopBits} {s t : State}

/-- The rows that write a field and go on, and their successors, by number (R26). -/
theorem configureWrite_codes {v : FieldVal} {q : SeqState} (hw : configureWrite wl m p f st s = some (v, q)) :
    (s.seqState.code.toNat, q.code.toNat) ∈ [(2, 3), (3, 4), (4, 5), (5, 6), (6, 7), (7, 8), (10, 11)] := by
  cases hq : s.seqState <;> simp [configureWrite, hq] at hw <;> obtain ⟨-, rfl⟩ := hw <;> decide

theorem configureWrite_successor {v : FieldVal} {q : SeqState} (hw : configureWrite wl m p f st s = some (v, q)) :
    q.code.toNat = s.seqState.code.toNat + 1 := by
  have h := configureWrite_codes hw
  simp only [List.mem_cons, Prod.mk.injEq, List.not_mem_nil, or_false] at h
  omega

/-- Of the rows after C1, only C4A, C4B and C5 are not of that kind. -/
theorem configureWrite_none (hw : configureWrite wl m p f st s = none)
    (hq : s.seqState.afterDisable = true ∨ s.seqState = .c2Disable) :
    s.seqState = .c4aClock ∨ s.seqState = .c4bDivide ∨ s.seqState = .c5Enable := by
  cases h : s.seqState <;> simp_all [configureWrite, SeqState.afterDisable, SeqState.afterGateOn]

/-- Settles O30: a field write to a held instance changes nothing, and the row goes on all the same. -/
theorem configureOfAHeldInstance : Obligations.ConfigureOfAHeldInstance := by
  intro s i wl m p f st hr hrow ha hb
  cases hw : configureWrite wl m p f st s with
  | some vq =>
    obtain ⟨v, q⟩ := vq
    refine ⟨s.goto q, ?_, rfl, rfl, rfl, .inl (configureWrite_successor hw)⟩
    have he := execConfigure_write (i := i) hw
    rwa [writeField_held hr] at he
  | none =>
    have hq : s.seqState = .c5Enable := ((configureWrite_none hw hrow).resolve_left ha).resolve_left hb
    refine ⟨s.finish .none, ?_, rfl, rfl, rfl, .inr ⟨hq, rfl, rfl⟩⟩
    have he := execConfigure_c5 (i := i) (wl := wl) (m := m) (p := p) (f := f) (st := st) hq
    rwa [writeField_held hr] at he

/-- The rows of CONFIGURE in which a field is written (R113 to R119, R123, R124). -/
def FieldName.WrittenIn : FieldName → SeqState → Prop
  | .en, q => q = .c2Disable ∨ q = .c5Enable
  | .wl, q => q = .c3aWl
  | .mode, q => q = .c3bMode
  | .parity, q => q = .c3cParity
  | .flow, q => q = .c3dFlow
  | .stop, q => q = .c3eStop
  | .baudreg, q => q = .c4cBaudreg
  | .other, _ => False

theorem configureWrite_field {v : FieldVal} {q : SeqState} (hw : configureWrite wl m p f st s = some (v, q)) :
    v.name.WrittenIn s.seqState := by
  cases hq : s.seqState <;> simp [configureWrite, hq] at hw <;> obtain ⟨rfl, -⟩ := hw <;>
    simp [FieldName.WrittenIn]

theorem writeField_own (s : State) (i : Inst) (v : FieldVal) :
    (s.writeField i v).u.get i = s.u.get i ∨ (s.writeField i v).u.get i = v.apply (s.u.get i) := by
  rw [writeField_get_self]
  split
  · exact .inl rfl
  · exact .inr rfl

/-- A step of CONFIGURE leaves its instance as it is or replaces the one field of its row. -/
theorem configureStep_own (hs : ConfigureStep i wl m p f st s t) :
    t.u.get i = s.u.get i ∨ ∃ v : FieldVal, v.name.WrittenIn s.seqState ∧ t.u.get i = v.apply (s.u.get i) := by
  cases hs with
  | write hw => exact (writeField_own s i _).imp_right fun h => ⟨_, configureWrite_field hw, h⟩
  | enable hq => exact (writeField_own s i _).imp_right fun h => ⟨.en true, .inr hq, h⟩
  | _ => exact .inl rfl

/-- So in every other row each field is as before, and `OTHER` in every row (R54, R110). -/
theorem configureStep_fields (hs : ConfigureStep i wl m p f st s t) :
    (t.u.get i).other = (s.u.get i).other ∧
      (s.seqState ≠ .c4cBaudreg → (t.u.get i).baudreg = (s.u.get i).baudreg) ∧
      (s.seqState ≠ .c2Disable → s.seqState ≠ .c5Enable → (t.u.get i).en = (s.u.get i).en) ∧
      (s.seqState ≠ .c3aWl → (t.u.get i).wl = (s.u.get i).wl) ∧
      (s.seqState ≠ .c3bMode → (t.u.get i).txen = (s.u.get i).txen ∧ (t.u.get i).rxen = (s.u.get i).rxen) ∧
      (s.seqState ≠ .c3cParity →
        (t.u.get i).paren = (s.u.get i).paren ∧ (t.u.get i).parsel = (s.u.get i).parsel) ∧
      (s.seqState ≠ .c3dFlow → (t.u.get i).rtsen = (s.u.get i).rtsen ∧ (t.u.get i).ctsen = (s.u.get i).ctsen) ∧
      (s.seqState ≠ .c3eStop → (t.u.get i).stop = (s.u.get i).stop) := by
  obtain hu | ⟨v, hrow, hu⟩ := configureStep_own hs
  · simp [hu]
  · obtain ⟨hen, hwl, hmode, hparity, hflow, hstop, hbaud, hother⟩ := v.apply_frame (s.u.get i)
    rw [hu]
    exact ⟨hother fun e => (e ▸ hrow : FieldName.WrittenIn .other s.seqState),
      fun h => hbaud fun e => h (e ▸ hrow : FieldName.WrittenIn .baudreg s.seqState),
      fun h2 h5 => hen fun e => (e ▸ hrow : FieldName.WrittenIn .en s.seqState).elim h2 h5,
      fun h => hwl fun e => h (e ▸ hrow : FieldName.WrittenIn .wl s.seqState),
      fun h => hmode fun e => h (e ▸ hrow : FieldName.WrittenIn .mode s.seqState),
      fun h => hparity fun e => h (e ▸ hrow : FieldName.WrittenIn .parity s.seqState),
      fun h => hflow fun e => h (e ▸ hrow : FieldName.WrittenIn .flow s.seqState),
      fun h => hstop fun e => h (e ▸ hrow : FieldName.WrittenIn .stop s.seqState)⟩

/-- No step of CONFIGURE touches another instance or its gate (R42). -/
theorem configureStep_other (hs : ConfigureStep i wl m p f st s t) {j : Inst} (hj : j ≠ i) :
    t.u.get j = s.u.get j ∧ t.gate.get j = s.gate.get j := by
  cases hs with
  | gateOn => exact ⟨rfl, PerInst.get_set_ne _ hj.symm _⟩
  | write => exact ⟨writeField_get_ne s hj.symm _, rfl⟩
  | enable => exact ⟨writeField_get_ne s hj.symm _, rfl⟩
  | _ => exact ⟨rfl, rfl⟩

/-- What no step of CONFIGURE writes. -/
theorem configureStep_block (hs : ConfigureStep i wl m p f st s t) :
    t.cmd = s.cmd ∧ t.opBaud = s.opBaud ∧ t.rst = s.rst ∧ t.clkA = s.clkA ∧ t.clkB = s.clkB ∧ t.env = s.env ∧
      t.agenda = s.agenda := by
  cases hs <;> exact ⟨rfl, rfl, rfl, rfl, rfl, rfl, rfl⟩

/-- What only one row of CONFIGURE writes: the gate, the frequency, the results; and the flags, which only the first
and the last step write. -/
theorem configureStep_rows (hs : ConfigureStep i wl m p f st s t) :
    (s.seqState ≠ .c1GateOn → t.gate = s.gate) ∧
      (s.seqState ≠ .c4aClock → t.opClk = s.opClk ∧ t.queries = s.queries) ∧
      (s.seqState ≠ .c4bDivide → t.resMant = s.resMant ∧ t.resFrac = s.resFrac) ∧
      (s.seqState ≠ .idle → t.seqState ≠ .idle → t.status = s.status) := by
  cases hs with
  | write => exact ⟨fun _ => rfl, fun _ => ⟨rfl, rfl⟩, fun _ => ⟨rfl, rfl⟩, fun _ _ => rfl⟩
  | accept hq => simp [hq]
  | gateOn hq => simp [hq]
  | noClock hq hc => simp [hq]
  | clock hq hc => simp [hq]
  | outOfRange hq => simp [hq]
  | divide hq => simp [hq]
  | enable hq => simp [hq]

end Configure

/-- Settles O35: the frame of a step of CONFIGURE, put together from its parts. -/
theorem configureFrame : Obligations.ConfigureFrame := by
  intro s t i wl m p f st h
  have hs : ConfigureStep i wl m p f st s t := execConfigure_next_iff.1 h
  obtain ⟨hcmd, hbaud, hrst, hclkA, hclkB, henv, hagenda⟩ := configureStep_block hs
  obtain ⟨hother, hfields⟩ := configureStep_fields hs
  obtain ⟨hgate, hclk, hres, hstatus⟩ := configureStep_rows hs
  obtain ⟨hbr, hen, hwl, hmode, hparity, hflow, hstop⟩ := hfields
  exact ⟨hcmd, hbaud, hrst, hclkA, hclkB, henv, hagenda, hother, fun j hj => configureStep_other hs hj, hgate, hclk,
    hres, hbr, hen, hwl, hmode, hparity, hflow, hstop, hstatus⟩

/-! ## DECONFIGURE -/

/-- No step of DECONFIGURE touches another instance, its gate or its line (R42). -/
theorem deconfigureStep_other {i j : Inst} {s t : State} (hs : DeconfigureStep i s t) (hj : j ≠ i) :
    t.u.get j = s.u.get j ∧ t.gate.get j = s.gate.get j ∧ t.rst.get j = s.rst.get j := by
  have hi : some i ≠ some j := by rintro ⟨⟩; exact hj rfl
  cases hs with
  | accept => exact ⟨rfl, rfl, rfl⟩
  | resetOn => exact access_other s (.reset i true) j hi
  | resetOff => exact access_other s (.reset i false) j hi
  | gateOff => exact access_other s (.gate i false) j hi

/-- What no step of DECONFIGURE writes. -/
theorem deconfigureStep_block {i : Inst} {s t : State} (hs : DeconfigureStep i s t) :
    t.cmd = s.cmd ∧ t.opClk = s.opClk ∧ t.opBaud = s.opBaud ∧ t.resMant = s.resMant ∧ t.resFrac = s.resFrac ∧
      t.clkA = s.clkA ∧ t.clkB = s.clkB ∧ t.queries = s.queries ∧ t.env = s.env ∧ t.agenda = s.agenda := by
  cases hs <;> exact ⟨rfl, rfl, rfl, rfl, rfl, rfl, rfl, rfl, rfl, rfl⟩

/-- Which rows of DECONFIGURE write the fields, the line, the gate and the flags. -/
theorem deconfigureStep_rows {i : Inst} {s t : State} (hs : DeconfigureStep i s t) :
    (s.seqState ≠ .x1RstAssert → t.u = s.u) ∧
      (s.seqState ≠ .x1RstAssert → s.seqState ≠ .x2RstRelease → t.rst = s.rst) ∧
      (s.seqState ≠ .x3GateOff → t.gate = s.gate) ∧
      (s.seqState ≠ .idle → t.seqState ≠ .idle → t.status = s.status) := by
  cases hs with
  | accept hq => exact ⟨fun _ => rfl, fun _ _ => rfl, fun _ => rfl, fun h => absurd hq h⟩
  | resetOn hq => exact ⟨fun h => absurd hq h, fun h => absurd hq h, fun _ => rfl, fun _ _ => rfl⟩
  | resetOff hq => exact ⟨fun _ => rfl, fun _ h => absurd hq h, fun _ => rfl, fun _ _ => rfl⟩
  | gateOff hq => exact ⟨fun _ => rfl, fun _ _ => rfl, fun h => absurd hq h, fun _ h => absurd rfl h⟩

/-- Settles O39: the frame of a step of DECONFIGURE, put together from its parts. -/
theorem deconfigureFrame : Obligations.DeconfigureFrame := by
  intro s t i h
  have hs : DeconfigureStep i s t := execDeconfigure_next_iff.1 h
  obtain ⟨hcmd, hclk, hbaud, hmant, hfrac, hclkA, hclkB, hqueries, henv, hagenda⟩ := deconfigureStep_block hs
  exact ⟨hcmd, hclk, hbaud, hmant, hfrac, hclkA, hclkB, hqueries, henv, hagenda,
    fun j hj => deconfigureStep_other hs hj, deconfigureStep_rows hs⟩

/-! ## The successor table -/

/-- Settles O10: each way a step of a command can go is a row of the table. -/
theorem seqFollowsTheTable : Obligations.SeqFollowsTheTable := by
  intro s t hq h
  obtain ⟨hidle, -⟩ | ⟨c, -, -, h⟩ := seqTurn_next h
  · exact absurd hidle hq
  cases c with
  | compute =>
    cases execCompute_next_iff.1 h with
    | accept hidle => exact absurd hidle hq
    | fails hr => simp [hr, SeqState.code]
    | ends hr => simp [hr, SeqState.code]
  | configure i wl m p f st =>
    cases execConfigure_next_iff.1 h with
    | accept hidle => exact absurd hidle hq
    | write hw =>
      have hrow := configureWrite_codes hw
      simp only [List.mem_cons, List.not_mem_nil, or_false] at hrow
      rcases hrow with h | h | h | h | h | h | h
      all_goals
        rw [State.goto_seqState, h]
        decide
    | gateOn hr => simp [hr, SeqState.code]
    | noClock hr => simp [hr, SeqState.code]
    | clock hr => simp [hr, SeqState.code]
    | outOfRange hr => simp [hr, SeqState.code]
    | divide hr => simp [hr, SeqState.code]
    | enable hr => simp [hr, SeqState.code]
  | deconfigure i =>
    cases execDeconfigure_next_iff.1 h with
    | accept hidle => exact absurd hidle hq
    | resetOn hr => simp [hr, SeqState.code]
    | resetOff hr => simp [hr, SeqState.code]
    | gateOff hr => simp [hr, SeqState.code]

end Sys2Proof.Machine

/-! SUPPORT. The reset lines' own invariant (10_state.md R41): a line is asserted only in the pulse of a
DECONFIGURE. -/

namespace Sys2Proof.Machine

/-- A step that writes no reset line and stays in its row keeps the invariant. -/
theorem ResetOnlyInPulse.congr {s t : State} (h : ResetOnlyInPulse s) (hr : t.rst = s.rst) (hc : t.cmd = s.cmd)
    (hq : t.seqState = s.seqState) : ResetOnlyInPulse t := by
  intro i hi
  rw [hq, workingOn_congr hc hq]
  exact h i (hr ▸ hi)

/-- Outside the pulse no line is asserted (R41). -/
theorem ResetOnlyInPulse.released {s : State} (h : ResetOnlyInPulse s) (hq : s.seqState ≠ .x2RstRelease) (i : Inst) :
    s.rst.get i = false := by
  cases hr : s.rst.get i with
  | false => rfl
  | true => exact absurd (h i hr).1 hq

theorem resetOnlyInPulse_of_released {t : State} (h : ∀ i, t.rst.get i = false) : ResetOnlyInPulse t :=
  fun i hi => by simp [h i] at hi

/-- A step from outside the pulse that writes no reset line keeps the invariant, wherever it goes. -/
theorem ResetOnlyInPulse.of_outside_pulse {s t : State} (h : ResetOnlyInPulse s) (hq : s.seqState ≠ .x2RstRelease)
    (hr : t.rst = s.rst) : ResetOnlyInPulse t :=
  resetOnlyInPulse_of_released fun i => by rw [hr]; exact h.released hq i

/-- DECONFIGURE asserts its own line on entering X2 and releases it on leaving (R141, R142). -/
theorem deconfigureStep_keepsPulse {i : Inst} {s t : State} (h : ResetOnlyInPulse s) (hq : s.seqState ≠ .idle)
    (hf : s.fetch = .ok (.deconfigure i)) (hs : DeconfigureStep i s t) : ResetOnlyInPulse t := by
  have hother : ∀ {j}, j ≠ i → t.rst.get j = s.rst.get j := fun hj => (deconfigureStep_other hs hj).2.2
  cases hs with
  | accept hidle => exact absurd hidle hq
  | resetOn hr =>
    intro j hj
    by_cases hij : j = i
    · subst hij
      exact ⟨rfl, workingOn_running (i := .deconfigure j) nofun hf⟩
    · rw [hother hij, h.released (by simp [hr])] at hj
      cases hj
  | resetOff =>
    refine resetOnlyInPulse_of_released fun j => ?_
    by_cases hij : j = i
    · subst hij; simp
    · rw [hother hij]
      cases hj : s.rst.get j with
      | false => rfl
      | true =>
        have hw : s.workingOn = some i := workingOn_running hq hf
        exact absurd (Option.some.inj ((h j hj).2.symm.trans hw)) hij
  | gateOff hr => exact h.of_outside_pulse (by simp [hr]) rfl

theorem seqTurn_keepsPulse {s t : State} (hinv : StateInv s) (h : ResetOnlyInPulse s) (hs : s.seqTurn = .next t) :
    ResetOnlyInPulse t := by
  obtain ⟨-, rfl⟩ | ⟨c, hq, hf, hs⟩ := seqTurn_next hs
  · exact h
  have hrow := hinv.row_of_fetch hq hf
  cases c with
  | compute =>
    have hx : s.seqState ≠ .x2RstRelease := fun e => by rw [e] at hrow; cases hrow
    cases execCompute_next_iff.1 hs <;> exact h.of_outside_pulse hx rfl
  | configure i wl m p f st =>
    have hx : s.seqState ≠ .x2RstRelease := fun e => by rw [e] at hrow; cases hrow
    obtain ⟨-, -, hr, -⟩ := configureStep_block (execConfigure_next_iff.1 hs)
    exact h.of_outside_pulse hx hr
  | deconfigure i => exact deconfigureStep_keepsPulse h hq hf (execDeconfigure_next_iff.1 hs)

/-- A command is issued only to an idle block, where no line is asserted. -/
theorem hostStep_keepsPulse {s t : State} {offset : Nat} {v : Word} (hinv : StateInv s) (h : ResetOnlyInPulse s)
    (hs : HostStep s offset v t) : ResetOnlyInPulse t := by
  cases hs with
  | ignored => exact h
  | opClk => exact h.congr rfl rfl rfl
  | opBaud => exact h.congr rfl rfl rfl
  | issue hb =>
    refine h.of_outside_pulse (by simp [hinv.idle_of_not_busy hb]) ?_
    cases hd : decode (v.setWidth 16) with
    | ok i => rw [issue_ok hd]; rfl
    | error r => rw [issue_error hd]; rfl

/-- The environment writes no reset line but by the move named for it. -/
theorem envStep_keepsPulse {s t : State} {a : EnvAction} (h : ResetOnlyInPulse s)
    (ha : ∀ i b, a ≠ .writeReset i b) (hs : EnvStep s a t) : ResetOnlyInPulse t := by
  cases hs with
  | writeField => exact h.congr rfl rfl rfl
  | writeGate => exact h.congr rfl rfl rfl
  | writeReset => exact absurd rfl (ha _ _)
  | setClock bus => cases bus <;> exact h.congr rfl rfl rfl
  | own hown =>
    obtain ⟨e, rfl, -⟩ := hown
    exact h.congr rfl rfl rfl

/-- Settles O43: only DECONFIGURE's own steps write a line, one step apart. -/
theorem resetLineOnlyInPulse : Obligations.ResetLineOnlyInPulse := by
  intro s t hinv h hnext hs
  cases ha : s.agenda with
  | nil => exact seqTurn_keepsPulse hinv h (step_nil ha ▸ hs)
  | cons e rest =>
    rw [step_cons ha] at hs
    have hinv' : StateInv { s with agenda := rest } := hinv.setAgenda rest
    have h' : ResetOnlyInPulse { s with agenda := rest } := h.congr rfl rfl rfl
    cases e with
    | hostWrite offset v => exact hostStep_keepsPulse hinv' h' (hostWrite_next hs)
    | hostRead offset => cases hs; exact h'
    | seq => exact seqTurn_keepsPulse hinv' h' hs
    | env a =>
      have hno : ∀ i b, a ≠ .writeReset i b := fun i b e => hnext i b rest (by rw [ha, e])
      exact envStep_keepsPulse h' hno (envMove_next hs)
    | powerOn => cases hs; exact resetOnlyInPulse_of_released fun i => by simp [State.reset]

end Sys2Proof.Machine

/-! SUPPORT. The accesses to an instance, its gate and its reset line (20_memory.md R54 to R61): the value a field
write leaves in its own field, and each write repeated. -/

namespace Sys2Proof.Machine

/-- The write of one field replaces the field whole; `FieldVal.apply_frame` is its frame (R54, R55). -/
theorem FieldVal.apply_own (v : FieldVal) (x : Usart) :
    (∀ a b, v = .mode a b → (v.apply x).txen = a ∧ (v.apply x).rxen = b) ∧
      (∀ a b, v = .parity a b → (v.apply x).paren = a ∧ (v.apply x).parsel = b) ∧
      (∀ a b, v = .flow a b → (v.apply x).rtsen = a ∧ (v.apply x).ctsen = b) ∧
      (∀ a, v = .en a → (v.apply x).en = a) ∧ (∀ a, v = .wl a → (v.apply x).wl = a) ∧
      (∀ a, v = .stop a → (v.apply x).stop = a) ∧ (∀ a, v = .baudreg a → (v.apply x).baudreg = a) ∧
      (∀ a, v = .other a → (v.apply x).other = a) := by
  refine ⟨?_, ?_, ?_, ?_, ?_, ?_, ?_, ?_⟩
  case refine_1 | refine_2 | refine_3 => rintro a b rfl; exact ⟨rfl, rfl⟩
  all_goals rintro a rfl; rfl

theorem gateWrite_gateWrite (s : State) (i : Inst) (b : Bool) :
    (s.gateWrite i b).gateWrite i b = s.gateWrite i b := by
  simp [State.gateWrite]

theorem resetWrite_resetWrite (s : State) (i : Inst) (b : Bool) :
    (s.resetWrite i b).resetWrite i b = s.resetWrite i b := by
  cases b <;> simp [State.resetWrite]

theorem writeField_writeField (s : State) (i : Inst) (v : FieldVal) :
    (s.writeField i v).writeField i v = s.writeField i v := by
  cases hr : s.rst.get i with
  | true => rw [writeField_held hr, writeField_held hr]
  | false =>
    rw [writeField_free (s := s.writeField i v) hr, writeField_get_self, writeField_free hr]
    simp [hr]

/-- Settles O23: a gate, a reset line and a field hold the value written, so writing it again is no change. -/
theorem accessesAreIdempotent : Obligations.AccessesAreIdempotent := by
  intro s a hquery
  cases a with
  | gate i b => exact gateWrite_gateWrite s i b
  | reset i b => exact resetWrite_resetWrite s i b
  | read i f => rfl
  | write i v => exact writeField_writeField s i v
  | query bus => exact absurd rfl (hquery bus)

/-- Settles O22: each write replaces one entry of its family, and `access_other` says the rest. -/
theorem gateAndResetWrites : Obligations.GateAndResetWrites := by
  intro s i b
  have hother : ∀ {j}, j ≠ i → some i ≠ some j := by rintro j hj ⟨⟩; exact hj rfl
  refine ⟨⟨rfl, PerInst.get_set_self _ _ _, fun j hj => ?_⟩,
    rfl, PerInst.get_set_self _ _ _, fun j hj => ?_, ?_, ?_⟩
  · exact (access_other s (.gate i b) j (hother hj)).2.1
  · obtain ⟨hu, -, hrst⟩ := access_other s (.reset i b) j (hother hj)
    exact ⟨hrst, hu⟩
  · rintro rfl; exact PerInst.get_set_self _ _ _
  · rintro rfl; rfl

/-- Settles O21: at field level both are the one `writeField`, which a held line stops and a released one lets
through to `FieldVal.apply`. -/
theorem fieldRMWLeavesUnrelatedBits : Obligations.FieldRMWLeavesUnrelatedBits := by
  refine ⟨fun s i w => ⟨rfl, fun hr => writeField_held hr _, fun hr => writeField_free hr _⟩, ?_⟩
  intro s i v t ht
  rw [accessAll_fieldRMW] at ht
  subst ht
  refine ⟨rfl, fun j hj => writeField_get_ne s hj.symm v, fun hr => writeField_held hr v, fun hr => ?_⟩
  have hu : (s.writeField i v).u.get i = v.apply (s.u.get i) := by simp [hr]
  obtain ⟨hen, hwl, hmode, hparity, hflow, hstop, hbaudreg, hother⟩ := v.apply_frame (s.u.get i)
  rw [hu]
  exact ⟨hen, hwl, hmode, hparity, hflow, hstop, hbaudreg, hother, v.apply_own _⟩

end Sys2Proof.Machine

/-! The five field writes of CONFIGURE's step 3, field by field (41_configure.md R115 to R119). -/

namespace Sys2Proof.Machine

theorem wlVal_eq (wl : WordLen) : wlVal wl = .wl (decide (wl = .wl9)) := by cases wl <;> rfl

theorem modeVal_eq (m : Mode) : modeVal m = .mode (decide (m ≠ .rxOnly)) (decide (m ≠ .txOnly)) := by
  cases m <;> rfl

theorem parityVal_eq (p : Parity) : parityVal p = .parity (decide (p ≠ .none)) (decide (p = .odd)) := by
  cases p <;> rfl

theorem flowVal_eq (f : FlowCtl) :
    flowVal f = .flow (decide (f = .rts ∨ f = .both)) (decide (f = .cts ∨ f = .both)) := by
  cases f <;> rfl

/-- A row of CONFIGURE that writes a field, where the reset line is released: the field replaced, the next row, and
nothing else (R54, R55). -/
theorem execConfigure_write_free {i : Inst} {wl : WordLen} {m : Mode} {p : Parity} {f : FlowCtl} {st : StopBits}
    {s : State} {v : FieldVal} {q : SeqState} (hr : s.rst.get i = false)
    (hw : configureWrite wl m p f st s = some (v, q)) :
    exec (.configure i wl m p f st) s =
      .next { s with u := s.u.set i (v.apply (s.u.get i)), seqState := q } := by
  have h := execConfigure_write (i := i) hw
  rwa [writeField_free hr] at h

/-- Settles O26: the five rows write the values of R115 to R119. -/
theorem configureFieldsAfterEachStep : Obligations.ConfigureFieldsAfterEachStep := by
  intro s i wl m p f st hr
  refine ⟨fun hq => ?_, fun hq => ?_, fun hq => ?_, fun hq => ?_, fun hq => ?_⟩
  · exact execConfigure_write_free hr (v := .wl _) (by rw [configureWrite, hq, wlVal_eq])
  · exact execConfigure_write_free hr (v := .mode _ _) (by rw [configureWrite, hq, modeVal_eq])
  · exact execConfigure_write_free hr (v := .parity _ _) (by rw [configureWrite, hq, parityVal_eq])
  · exact execConfigure_write_free hr (v := .flow _ _) (by rw [configureWrite, hq, flowVal_eq])
  · exact execConfigure_write_free hr (v := .stop _) (by rw [configureWrite, hq, stopVal])

end Sys2Proof.Machine

/-! The block's registers as the host sees them (20_memory.md R51), and the command in progress, which nobody can
modify (20_memory.md R63, 10_state.md R27). -/

namespace Sys2Proof.Machine

/-- `STATUS` as a number (R25). -/
theorem Status.word_toNat (s : Status) : s.word.toNat = 4 * s.err.toNat + 2 * s.done.toNat + s.busy.toNat := by
  obtain ⟨busy, done, err⟩ := s
  revert busy done err
  decide

/-- The offsets of the seven registers (R51). -/
theorem hostRead_isSome_iff (s : State) (offset : Nat) :
    (s.hostRead offset).isSome = true ↔ offset ∈ [0x00, 0x04, 0x08, 0x0C, 0x10, 0x14, 0x18] := by
  simp only [State.hostRead, Option.isSome_map, List.mem_cons, List.not_mem_nil, or_false]
  constructor
  · unfold blockRegAt
    split_ifs <;> simp [*]
  · rintro (rfl | rfl | rfl | rfl | rfl | rfl | rfl) <;> rfl

/-- Two values that agree below bit 16 hold the same command word. -/
theorem setWidth_cmd_congr {v v' : Word} (h : v.toNat % 65536 = v'.toNat % 65536) :
    (v.setWidth 16 : CmdWord) = v'.setWidth 16 := by
  apply BitVec.eq_of_toNat_eq
  rw [BitVec.toNat_setWidth, BitVec.toNat_setWidth]
  exact h

/-- Settles O7: the reads register by register (zeros above a width are `BitVec.toNat_setWidth_of_le`), then the
offsets, then the writes. -/
theorem registerMap : Obligations.RegisterMap := by
  intro s
  refine ⟨fun r => ⟨?_, ?_, ?_, ?_, ?_, ?_, ?_⟩, hostRead_isSome_iff s, fun offset v ho => ?_,
    fun hb v => ⟨rfl, ?_, ?_⟩, fun v v' h => ?_, fun offset rest ha => ?_⟩
  · rintro ⟨⟩; exact BitVec.toNat_setWidth_of_le (by decide)
  · rintro ⟨⟩; rfl
  · rintro ⟨⟩; rfl
  · rintro ⟨⟩; exact BitVec.toNat_setWidth_of_le (by decide)
  · rintro ⟨⟩; exact BitVec.toNat_setWidth_of_le (by decide)
  · rintro ⟨⟩; exact (BitVec.toNat_setWidth_of_le (by decide)).trans s.status.word_toNat
  · rintro ⟨⟩; exact BitVec.toNat_setWidth_of_le (by decide)
  · simp only [List.mem_cons, List.not_mem_nil, or_false, not_or] at ho
    obtain ⟨h0, h4, h8⟩ := ho
    exact hostWrite_other h0 h4 h8 s v
  · simp [hostWrite_opClk, hb]
  · simp [hostWrite_opBaud, hb]
  · rw [hostWrite_cmd, hostWrite_cmd, setWidth_cmd_congr h]
  · rw [step_cons ha]; rfl

/-- `t` holds the command of `s` and its operands, but for the frequency that step C4A stores in `OP_CLK`
(R27, R63, R120). -/
def State.KeepsCommand (s t : State) : Prop :=
  t.cmd = s.cmd ∧ t.opBaud = s.opBaud ∧ (s.seqState ≠ .c4aClock → t.opClk = s.opClk)

theorem State.KeepsCommand.refl (s : State) : s.KeepsCommand s := ⟨rfl, rfl, fun _ => rfl⟩

theorem exec_keepsCommand {i : Instr} {s t : State} (h : exec i s = .next t) : s.KeepsCommand t := by
  cases i with
  | compute => cases execCompute_next_iff.1 h <;> exact ⟨rfl, rfl, fun _ => rfl⟩
  | configure i wl m p f st =>
    have hs : ConfigureStep i wl m p f st s t := execConfigure_next_iff.1 h
    obtain ⟨hcmd, hbaud, -⟩ := configureStep_block hs
    obtain ⟨-, hclk, -⟩ := configureStep_rows hs
    exact ⟨hcmd, hbaud, fun hq => (hclk hq).1⟩
  | deconfigure i =>
    obtain ⟨hcmd, hclk, hbaud, -⟩ := deconfigureStep_block (execDeconfigure_next_iff.1 h)
    exact ⟨hcmd, hbaud, fun _ => hclk⟩

theorem seqTurn_keepsCommand {s t : State} (h : s.seqTurn = .next t) : s.KeepsCommand t := by
  obtain ⟨-, rfl⟩ | ⟨i, -, -, h⟩ := seqTurn_next h
  · exact .refl t
  · exact exec_keepsCommand h

/-- While BUSY every write of the host is ignored (R23, R73). -/
theorem hostStep_busy {s t : State} {offset : Nat} {v : Word} (hs : HostStep s offset v t)
    (hb : s.status.busy = true) : t = s := by
  cases hs with
  | ignored => rfl
  | opClk h | opBaud h | issue h => simp [h] at hb

/-- Settles O13: SEQ keeps the command, the host is ignored, the environment does not reach it. -/
theorem commandInProgressIsFixed : Obligations.CommandInProgressIsFixed := by
  intro s t hb hs hpower
  cases ha : s.agenda with
  | nil => exact seqTurn_keepsCommand (step_nil ha ▸ hs)
  | cons e rest =>
    rw [step_cons ha] at hs
    cases e with
    | hostWrite offset v =>
      obtain rfl := hostStep_busy (hostWrite_next hs) hb
      exact ⟨rfl, rfl, fun _ => rfl⟩
    | hostRead offset => cases hs; exact ⟨rfl, rfl, fun _ => rfl⟩
    | seq => exact seqTurn_keepsCommand (s := { s with agenda := rest }) hs
    | env a =>
      obtain ⟨hcmd, hclk, hbaud, -⟩ := environmentLeavesTheBlock _ _ _ hs
      exact ⟨hcmd, hbaud, fun _ => hclk⟩
    | powerOn => exact absurd ha (hpower rest)

end Sys2Proof.Machine

/-! SUPPORT. The decoder and the encoder are inverse to each other (30_encoding.md R74, R79, R83): cutting a word and
putting it together again is the identity, and each of the three decoders answers a command exactly on its fields. -/

namespace Sys2Proof

/-- Putting the fields of a word together gives the word back (R74). -/
theorem Fields.toWord_ofWord (w : CmdWord) : (Fields.ofWord w).toWord = w := by
  apply BitVec.eq_of_getLsbD_eq
  intro k hk
  simp only [Fields.toWord, Fields.ofWord, BitVec.getLsbD_append, BitVec.getLsbD_extractLsb']
  interval_cases k <;> simp

theorem instOf_eq_some {b : BitVec 3} {i : Inst} : instOf b = some i ↔ BitVec.ofNat 3 i.val = b := by
  revert b i; decide

theorem modeOf_eq_some {b : BitVec 2} {m : Mode} : modeOf b = some m ↔ m.code = b := by
  cases m <;> revert b <;> decide

theorem parityOf_eq_some {b : BitVec 2} {p : Parity} : parityOf b = some p ↔ p.code = b := by
  cases p <;> revert b <;> decide

@[simp] theorem code_wordLenOf (b : BitVec 1) : (wordLenOf b).code = b := by revert b; decide

@[simp] theorem code_flowOf (b : BitVec 2) : (flowOf b).code = b := by revert b; decide

@[simp] theorem code_stopOf (b : BitVec 2) : (stopOf b).code = b := by revert b; decide

theorem Fields.configZero_iff {f : Fields} :
    f.configZero = true ↔ f.wl = 0 ∧ f.mode = 0 ∧ f.parity = 0 ∧ f.flow = 0 ∧ f.stop = 0 := by
  simp [Fields.configZero, and_assoc]

theorem decodeCompute_ok_iff {f : Fields} {i : Instr} :
    decodeCompute f = .ok i ↔ (f.inst = 0 ∧ f.configZero = true) ∧ i = .compute := by
  unfold decodeCompute
  by_cases hz : f.inst = 0 ∧ f.configZero = true
  · rw [if_pos hz]
    simp [hz, eq_comm]
  · rw [if_neg hz]
    exact ⟨nofun, fun h => absurd h.1 hz⟩

theorem decodeConfigure_ok_iff {f : Fields} {i : Instr} :
    decodeConfigure f = .ok i ↔
      ∃ k m p, instOf f.inst = some k ∧ modeOf f.mode = some m ∧ parityOf f.parity = some p ∧
        i = .configure k (wordLenOf f.wl) m p (flowOf f.flow) (stopOf f.stop) := by
  unfold decodeConfigure
  cases instOf f.inst <;> cases modeOf f.mode <;> cases parityOf f.parity <;> simp [eq_comm]

theorem decodeDeconfigure_ok_iff {f : Fields} {i : Instr} :
    decodeDeconfigure f = .ok i ↔
      f.configZero = true ∧ ∃ k, instOf f.inst = some k ∧ i = .deconfigure k := by
  unfold decodeDeconfigure
  cases f.configZero <;> cases instOf f.inst <;> simp [eq_comm]

/-- `OP` picks the decoder (R75). -/
theorem decodeFields_ok_iff {f : Fields} {i : Instr} :
    decodeFields f = .ok i ↔
      f.rsvd = 0 ∧ (f.op = 0 ∧ decodeCompute f = .ok i ∨ f.op = 1 ∧ decodeConfigure f = .ok i ∨
        f.op = 2 ∧ decodeDeconfigure f = .ok i) := by
  unfold decodeFields
  split_ifs <;> simp_all

theorem fields_of_decodeFields {f : Fields} {i : Instr} (h : decodeFields f = .ok i) : i.fields = f := by
  obtain ⟨rsvd, stop, flow, parity, mode, wl, inst, op⟩ := f
  obtain ⟨hr, ⟨ho, h⟩ | ⟨ho, h⟩ | ⟨ho, h⟩⟩ := decodeFields_ok_iff.1 h
  · obtain ⟨⟨hi, hz⟩, rfl⟩ := decodeCompute_ok_iff.1 h
    simp_all [Fields.configZero_iff, Instr.fields]
  · obtain ⟨k, m, p, hk, hm, hp, rfl⟩ := decodeConfigure_ok_iff.1 h
    simp_all [instOf_eq_some, modeOf_eq_some, parityOf_eq_some, Instr.fields]
  · obtain ⟨hz, k, hk, rfl⟩ := decodeDeconfigure_ok_iff.1 h
    simp_all [Fields.configZero_iff, instOf_eq_some, Instr.fields]

theorem fields_of_decode {w : CmdWord} {i : Instr} (h : decode w = .ok i) : i.fields = Fields.ofWord w :=
  fields_of_decodeFields h

/-- A word decodes to a command exactly when it is the command's word (R79, R83). -/
theorem decode_ok_iff {w : CmdWord} {i : Instr} : decode w = .ok i ↔ encode i = w := by
  constructor
  · intro h
    rw [encode, fields_of_decode h, Fields.toWord_ofWord]
  · rintro rfl
    exact decode_encode i

/-- Settles O1: the fields of a decoded word are its command's, and an encoded command decodes to itself. -/
theorem decodeEncodeAgree : Obligations.DecodeEncodeAgree := fun _ _ => decode_ok_iff

/-- Settles O3: each of the four words is the command's encoding, bit by bit. -/
theorem sampleWordsDecode : Obligations.SampleWordsDecode :=
  ⟨decode_ok_iff.2 rfl, decode_ok_iff.2 rfl, decode_ok_iff.2 rfl, decode_ok_iff.2 rfl⟩

end Sys2Proof

/-! The legal words (30_encoding.md R79): the table of masks and matches, read field by field, asks what the checks on
the cut fields ask, and those are what the decoder accepts; the legal words of each row are counted by the commands
they encode. -/

namespace Sys2Proof

/-- `INST` names an instance (R76). -/
theorem Fields.instNamed_iff {f : Fields} : f.instNamed = true ↔ ∃ i, instOf f.inst = some i := by
  have named : ∀ b, (instOf b).isSome = decide (b.toNat < 6) := by decide
  rw [Fields.instNamed, ← named, Option.isSome_iff_exists]

theorem Fields.modeNamed_iff {f : Fields} : f.modeNamed = true ↔ ∃ m, modeOf f.mode = some m := by
  have named : ∀ b, (modeOf b).isSome = (b != 3) := by decide
  rw [Fields.modeNamed, ← named, Option.isSome_iff_exists]

theorem Fields.parityNamed_iff {f : Fields} : f.parityNamed = true ↔ ∃ p, parityOf f.parity = some p := by
  have named : ∀ b, (parityOf b).isSome = (b != 3) := by decide
  rw [Fields.parityNamed, ← named, Option.isSome_iff_exists]

/-- The checks by `OP` (R79), `OP = 3` passing none. -/
theorem Fields.wellFormed_iff {f : Fields} :
    f.wellFormed = true ↔
      f.rsvd = 0 ∧ (f.op = 0 ∧ (f.inst = 0 ∧ f.configZero = true) ∨
        f.op = 1 ∧ f.instNamed = true ∧ f.modeNamed = true ∧ f.parityNamed = true ∨
        f.op = 2 ∧ f.configZero = true ∧ f.instNamed = true) := by
  simp only [Fields.wellFormed, Fields.reservedZero, Bool.and_eq_true, Bool.or_eq_true, beq_iff_eq]
  tauto

/-- The decoder accepts exactly the well-formed fields (R79). -/
theorem Fields.wellFormed_iff_decodeFields {f : Fields} : f.wellFormed = true ↔ ∃ i, decodeFields f = .ok i := by
  simp only [Fields.wellFormed_iff, Fields.instNamed_iff, Fields.modeNamed_iff, Fields.parityNamed_iff,
    decodeFields_ok_iff, decodeCompute_ok_iff, decodeConfigure_ok_iff, decodeDeconfigure_ok_iff]
  constructor
  · rintro ⟨hr, ⟨ho, hz⟩ | ⟨ho, ⟨k, hk⟩, ⟨m, hm⟩, p, hp⟩ | ⟨ho, hz, k, hk⟩⟩
    · exact ⟨_, hr, .inl ⟨ho, hz, rfl⟩⟩
    · exact ⟨_, hr, .inr (.inl ⟨ho, k, m, p, hk, hm, hp, rfl⟩)⟩
    · exact ⟨_, hr, .inr (.inr ⟨ho, hz, k, hk, rfl⟩)⟩
  · rintro ⟨i, hr, ⟨ho, hz, -⟩ | ⟨ho, k, m, p, hk, hm, hp, -⟩ | ⟨ho, hz, k, hk, -⟩⟩
    · exact ⟨hr, .inl ⟨ho, hz⟩⟩
    · exact ⟨hr, .inr (.inl ⟨ho, ⟨k, hk⟩, ⟨m, hm⟩, p, hp⟩)⟩
    · exact ⟨hr, .inr (.inr ⟨ho, hz, k, hk⟩)⟩

/-! ## The table of masks and matches -/

/-- The bitwise "and" of two words, field by field. -/
def Fields.and (f g : Fields) : Fields where
  rsvd := f.rsvd &&& g.rsvd
  stop := f.stop &&& g.stop
  flow := f.flow &&& g.flow
  parity := f.parity &&& g.parity
  mode := f.mode &&& g.mode
  wl := f.wl &&& g.wl
  inst := f.inst &&& g.inst
  op := f.op &&& g.op

theorem Fields.ofWord_and (v w : CmdWord) : Fields.ofWord (v &&& w) = (Fields.ofWord v).and (Fields.ofWord w) := by
  simp only [Fields.ofWord, Fields.and, BitVec.extractLsb'_and]

/-- A word passes a mask when each of its fields does. -/
theorem and_eq_iff_fields {w mask pattern : CmdWord} :
    w &&& mask = pattern ↔ (Fields.ofWord w).and (Fields.ofWord mask) = Fields.ofWord pattern := by
  rw [← Fields.ofWord_and]
  exact (Function.LeftInverse.injective Fields.toWord_ofWord).eq_iff.symm

/-- The mask of a CONFIGURE keeps `RSVD` and `OP`. -/
theorem configureMask_iff {w : CmdWord} :
    w &&& 0xC003 = 0x0001 ↔ (Fields.ofWord w).rsvd = 0 ∧ (Fields.ofWord w).op = 1 := by
  have hmask : Fields.ofWord 0xC003 = ⟨.allOnes 2, 0, 0, 0, 0, 0, 0, .allOnes 2⟩ := rfl
  have hpattern : Fields.ofWord 0x0001 = ⟨0, 0, 0, 0, 0, 0, 0, 1⟩ := rfl
  rw [and_eq_iff_fields, hmask, hpattern]
  simp only [Fields.and, BitVec.and_allOnes, BitVec.ofNat_eq_ofNat, BitVec.and_zero, Fields.mk.injEq]
  tauto

/-- The mask of a DECONFIGURE keeps every field but `INST`. -/
theorem deconfigureMask_iff {w : CmdWord} :
    w &&& 0xFFE3 = 0x0002 ↔
      (Fields.ofWord w).rsvd = 0 ∧ (Fields.ofWord w).op = 2 ∧ (Fields.ofWord w).configZero = true := by
  have hmask : Fields.ofWord 0xFFE3 =
      ⟨.allOnes 2, .allOnes 2, .allOnes 2, .allOnes 2, .allOnes 2, .allOnes 1, 0, .allOnes 2⟩ := rfl
  have hpattern : Fields.ofWord 0x0002 = ⟨0, 0, 0, 0, 0, 0, 0, 2⟩ := rfl
  rw [and_eq_iff_fields, hmask, hpattern, Fields.configZero_iff]
  simp only [Fields.and, BitVec.and_allOnes, BitVec.ofNat_eq_ofNat, BitVec.and_zero, Fields.mk.injEq]
  tauto

/-- The mask of COMPUTE keeps every field. -/
theorem computeMask_iff {w : CmdWord} :
    w &&& 0xFFFF = 0x0000 ↔
      (Fields.ofWord w).rsvd = 0 ∧ (Fields.ofWord w).op = 0 ∧ (Fields.ofWord w).inst = 0 ∧
        (Fields.ofWord w).configZero = true := by
  have hmask : Fields.ofWord 0xFFFF =
      ⟨.allOnes 2, .allOnes 2, .allOnes 2, .allOnes 2, .allOnes 2, .allOnes 1, .allOnes 3, .allOnes 2⟩ := rfl
  have hpattern : Fields.ofWord 0x0000 = ⟨0, 0, 0, 0, 0, 0, 0, 0⟩ := rfl
  rw [and_eq_iff_fields, hmask, hpattern, Fields.configZero_iff]
  simp only [Fields.and, BitVec.and_allOnes, Fields.mk.injEq]
  tauto

/-- The condition on the bits `[4:2]` (R79). -/
theorem Fields.ofWord_instNamed (w : CmdWord) : (Fields.ofWord w).instNamed = decide (w.toNat / 4 % 8 ≤ 5) := by
  have hbits : (Fields.ofWord w).inst.toNat = w.toNat / 4 % 8 := by
    simp [Fields.ofWord, Nat.shiftRight_eq_div_pow]
  rw [Fields.instNamed, hbits, decide_eq_decide]
  omega

/-- A 2-bit field that is not 3, read off the number of the word. -/
theorem extractLsb'_ne_three (w : CmdWord) (k : Nat) :
    (w.extractLsb' k 2 != 3) = decide (w.toNat / 2 ^ k % 4 ≠ 3) := by
  rw [bne, Bool.beq_eq_decide_eq, ← decide_not, decide_eq_decide, ← BitVec.toNat_inj, BitVec.extractLsb'_toNat,
    Nat.shiftRight_eq_div_pow]
  rfl

/-- The condition on the bits `[7:6]` (R79). -/
theorem Fields.ofWord_modeNamed (w : CmdWord) : (Fields.ofWord w).modeNamed = decide (w.toNat / 64 % 4 ≠ 3) :=
  extractLsb'_ne_three w 6

/-- The condition on the bits `[9:8]` (R79). -/
theorem Fields.ofWord_parityNamed (w : CmdWord) :
    (Fields.ofWord w).parityNamed = decide (w.toNat / 256 % 4 ≠ 3) :=
  extractLsb'_ne_three w 8

/-- The table and the checks on the cut fields ask the same (R79). -/
theorem legal_iff_wellFormed {w : CmdWord} : legal w = true ↔ (Fields.ofWord w).wellFormed = true := by
  simp only [legal, rows, Row.matchesWord, ← Fields.ofWord_instNamed, ← Fields.ofWord_modeNamed,
    ← Fields.ofWord_parityNamed, Fields.wellFormed_iff, List.any_cons, List.any_nil, Bool.or_eq_true,
    Bool.and_eq_true, beq_iff_eq, computeMask_iff, configureMask_iff, deconfigureMask_iff]
  simp only [Bool.not_true, Bool.not_false, Bool.false_eq_true, false_or, true_or, or_false, and_true]
  tauto

/-- `Legal(w)` of the table is what the decoder accepts (R79). -/
theorem legal_iff_decode {w : CmdWord} : legal w = true ↔ ∃ i, decode w = .ok i :=
  legal_iff_wellFormed.trans Fields.wellFormed_iff_decodeFields

/-! ## The number of legal words -/

/-- No two commands share a word: `decode` takes it back. -/
theorem encode_injective : Function.Injective encode := fun i j h =>
  Except.ok.inj ((decode_encode i).symm.trans (h ▸ decode_encode j))

/-- What a CONFIGURE names: the instance and the five settings of its word (R74). -/
abbrev ConfigureArgs := Inst × WordLen × Mode × Parity × FlowCtl × StopBits

/-- The CONFIGURE of its arguments. -/
def ConfigureArgs.instr : ConfigureArgs → Instr
  | (i, wl, m, p, f, st) => .configure i wl m p f st

/-- The arguments of every CONFIGURE, `6 * 2 * 3 * 3 * 4 * 4` of them (R79). -/
def allConfigureArgs : List ConfigureArgs :=
  List.finRange 6 ×ˢ [.wl8, .wl9] ×ˢ [.txOnly, .rxOnly, .txRx] ×ˢ [.none, .even, .odd] ×ˢ
    [.none, .rts, .cts, .both] ×ˢ [.one, .half, .two, .oneAndHalf]

theorem ConfigureArgs.instr_injective : Function.Injective ConfigureArgs.instr := by
  rintro ⟨i, wl, m, p, f, st⟩ ⟨i', wl', m', p', f', st'⟩ h
  cases h
  rfl

theorem length_allConfigureArgs : allConfigureArgs.length = 1728 := by
  simp only [allConfigureArgs, List.length_product, List.length_finRange, List.length_cons, List.length_nil]

theorem nodup_allConfigureArgs : allConfigureArgs.Nodup :=
  (List.nodup_finRange 6).product <| .product (by decide) <| .product (by decide) <| .product (by decide) <|
    .product (by decide) (by decide)

theorem mem_allConfigureArgs (a : ConfigureArgs) : a ∈ allConfigureArgs := by
  obtain ⟨i, wl, m, p, f, st⟩ := a
  simp only [allConfigureArgs, List.mem_product]
  refine ⟨List.mem_finRange i, ?_, ?_, ?_, ?_, ?_⟩
  · cases wl <;> decide
  · cases m <;> decide
  · cases p <;> decide
  · cases f <;> decide
  · cases st <;> decide

/-- Settles O2: the table asks what the decoder asks, and the words of each row are the encodings of its commands. -/
theorem legalWordsAreTheTable : Obligations.LegalWordsAreTheTable := by
  refine ⟨fun w => legal_iff_decode, [encode .compute], (allConfigureArgs.map ConfigureArgs.instr).map encode,
    ((List.finRange 6).map Instr.deconfigure).map encode,
    ?_, rfl, fun w => ?_, ?_, ?_, fun w => ?_, ?_, ?_, fun w => ?_⟩
  · exact List.nodup_singleton _
  · rw [decode_ok_iff, eq_comm]
    exact List.mem_singleton
  · exact (nodup_allConfigureArgs.map ConfigureArgs.instr_injective).map encode_injective
  · rw [List.length_map, List.length_map, length_allConfigureArgs]
  · simp [decode_ok_iff, mem_allConfigureArgs, ConfigureArgs.instr]
  · exact ((List.nodup_finRange 6).map fun _ _ => Instr.deconfigure.inj).map encode_injective
  · rw [List.length_map, List.length_map, List.length_finRange]
  · simp [decode_ok_iff]

end Sys2Proof

/-! What a write of the host to `CMD` does: while the block is idle it issues the word, accepting or refusing it
(30_encoding.md R71), while the block is BUSY it is ignored (R73); and `exec` of a command in IDLE is its acceptance. -/

namespace Sys2Proof.Machine

theorem writeCmd_ok {s : State} {w : CmdWord} {i : Instr} (hb : s.status.busy = false) (hd : decode w = .ok i)
    (hc : s.callerReady i = true) : s.writeCmd w = .next ({ s with cmd := w }.accept i) := by
  unfold State.callerReady at hc
  unfold State.writeCmd
  rw [issue_ok hd]
  cases hk : instrInst i <;> simp_all

theorem writeCmd_error {s : State} {w : CmdWord} {r : Reject} (hb : s.status.busy = false)
    (hd : decode w = .error r) : s.writeCmd w = .next { s with cmd := w }.refuseWord := by
  simp [State.writeCmd, hb, hd, issue_error hd]

/-- `OP` is the two low bits (R74). -/
theorem ofWord_op_toNat (w : CmdWord) : (Fields.ofWord w).op.toNat = w.toNat % 4 :=
  BitVec.extractLsb'_toNat 0 2 w

/-- The two low bits of a command's word name its first state (R71, R75). -/
theorem firstState_of_decode {w : CmdWord} {i : Instr} (hd : decode w = .ok i) :
    firstState i =
      if w.toNat % 4 = 0 then .k1Compute else if w.toNat % 4 = 1 then .c1GateOn else .x1RstAssert := by
  rw [← ofWord_op_toNat, ← fields_of_decode hd]
  cases i <;> rfl

/-- Settles O4: a decoded word is accepted, any other refused. -/
theorem hostWriteIssuesCommand : Obligations.HostWriteIssuesCommand := by
  rintro s v rest w ha rfl hb
  rw [step_cons ha]
  refine ⟨fun i hd hc => ?_, fun hill => ?_⟩
  · rw [← firstState_of_decode hd]
    exact writeCmd_ok (s := { s with agenda := rest }) hb hd hc
  · cases hd : decode (v.setWidth 16) with
    | ok i => exact absurd hd (hill i)
    | error r => exact writeCmd_error (s := { s with agenda := rest }) hb hd

/-- While BUSY a write of the host is ignored at every offset (R23, R73). -/
theorem hostWrite_busy {s : State} (hb : s.status.busy = true) (offset : Nat) (v : Word) :
    s.hostWrite offset v = .next s := by
  unfold State.hostWrite
  split <;> simp [State.writeCmd, hb]

/-- Settles O6: the block is BUSY, so the write is ignored whatever its offset. -/
theorem writesWhileBusyAreIgnored : Obligations.WritesWhileBusyAreIgnored := by
  intro s offset v rest ha _ hb
  rw [step_cons ha]
  exact hostWrite_busy (s := { s with agenda := rest }) hb offset v

/-- Settles O12: each of the three commands is accepted in IDLE. -/
theorem execInIdleAccepts : Obligations.ExecInIdleAccepts := by
  intro i s hq
  cases i with
  | compute => exact execCompute_idle hq
  | configure => exact execConfigure_idle hq
  | deconfigure => exact execDeconfigure_idle hq

end Sys2Proof.Machine

/-! SUPPORT. The divisor as a rounding (40_divisor.md R92, R93): `D` is the quotient of the operands rounded half up,
`16*m0 + f0` of the source's two-step definition; when DIVCALC and COMPUTE succeed (R94 to R96). -/

namespace Sys2Proof.Machine

/-! ## The divisor -/

/-- `D` is `clk ÷ baud` rounded half up (R92, R13). -/
theorem divisorD_eq_round {clk baud : Nat} (hb : baud ≠ 0) :
    (divisorD clk baud : ℤ) = round ((clk : ℚ) / baud) := by
  have hq : (baud : ℚ) ≠ 0 := Nat.cast_ne_zero.2 hb
  have hsum : (clk : ℚ) / baud + 1 / 2 = ((2 * clk + baud : ℕ) : ℚ) / (2 * baud : ℕ) := by
    push_cast; field_simp
  rw [round_eq, hsum, ← Int.natCast_floor_eq_floor (by positivity), Nat.floor_div_eq_div, divisorD]

/-- `D` is `16*m0 + f0` of the two-step definition, whatever integer is taken off before the rounding (R93). -/
theorem divisorD_eq_mantissa_add_rounded_rest {clk baud : Nat} (hb : baud ≠ 0) (m0 : ℤ) :
    (divisorD clk baud : ℤ) = 16 * m0 + ⌊16 * ((clk : ℚ) / (baud * 16) - m0) + 1 / 2⌋ := by
  have hrest : 16 * ((clk : ℚ) / (baud * 16) - m0) + 1 / 2 = (clk : ℚ) / baud + 1 / 2 - (16 * m0 : ℤ) := by
    push_cast; ring
  rw [hrest, Int.floor_sub_intCast, ← round_eq, ← divisorD_eq_round hb]
  ring

/-- The rest of a floor, in sixteenths and rounded half up, is 16 at most: the carry of R93. -/
theorem roundedRest_bounds (x : ℚ) :
    0 ≤ ⌊16 * (x - ⌊x⌋) + 1 / 2⌋ ∧ ⌊16 * (x - ⌊x⌋) + 1 / 2⌋ ≤ 16 := by
  have hlow : 0 ≤ x - ⌊x⌋ := Int.fract_nonneg x
  have hhigh : x - ⌊x⌋ < 1 := Int.fract_lt_one x
  constructor
  · exact Int.floor_nonneg.2 (by linarith)
  · exact Int.lt_add_one_iff.1 (Int.floor_lt.2 (by push_cast; linarith))

/-- The tie of the rounding: `clk ÷ baud` is an exact half above an integer (R93). -/
theorem quotient_exactHalf_iff {clk baud : Nat} (hb : baud ≠ 0) :
    Int.fract ((clk : ℚ) / baud) = 1 / 2 ↔ baud % 2 = 0 ∧ clk % baud = baud / 2 := by
  have hq : (baud : ℚ) ≠ 0 := Nat.cast_ne_zero.2 hb
  have htwice : ((clk % baud : ℕ) : ℚ) / baud = 1 / 2 ↔ clk % baud * 2 = baud := by
    rw [div_eq_div_iff hq two_ne_zero, one_mul]
    exact_mod_cast Iff.rfl
  rw [Int.fract_div_natCast_eq_div_natCast_mod, htwice]
  omega

/-- Settles O14: `D = 16*m0 + f0` with `f0` within 0..16, so its halves are `m0` and `f0`, carried at 16. -/
theorem divisorIsTheTwoStepDefinition : Obligations.DivisorIsTheTwoStepDefinition := by
  intro clk baud hb m0 f0
  obtain ⟨hlow, hhigh⟩ : 0 ≤ f0 ∧ f0 ≤ 16 := roundedRest_bounds _
  have hD : (divisorD clk baud : ℤ) = 16 * m0 + f0 := divisorD_eq_mantissa_add_rounded_rest hb m0
  refine ⟨hlow, hhigh, ?_, ?_, quotient_exactHalf_iff hb⟩
  · split <;> omega
  · split <;> omega

/-- The equivalent form of `D`: the half of the numerator, cut to an integer, by `baud` (R99). -/
theorem divisorD_eq_halfNumerator (clk baud : Nat) : divisorD clk baud = (clk + baud / 2) / baud := by
  rw [divisorD, ← Nat.div_div_eq_div_mul, Nat.mul_add_div two_pos]

/-- Settles O17: the bounds follow from those of the operands; the widest operands need the 34th bit. -/
theorem divisorNeedsThirtyFourBits : Obligations.DivisorNeedsThirtyFourBits := by
  refine ⟨fun clk baud hclk hbaud _ => ⟨by omega, by decide, by omega, Nat.div_le_self _ _,
    (divisorD_eq_halfNumerator clk baud).symm, by omega⟩, 2 ^ 32 - 1, 2 ^ 32 - 1, ?_⟩
  decide

/-! ## DIVCALC -/

/-- Exactly when DIVCALC succeeds (R94). -/
theorem divcalc_succeeds_iff (w clk baud : Nat) :
    (∃ m f, divcalc w clk baud = .ok m f) ↔ clk ≠ 0 ∧ baud ≠ 0 ∧ divisorD clk baud / 16 < 2 ^ w := by
  constructor
  · rintro ⟨m, f, h⟩
    obtain ⟨hb, hc, rfl, -, hm, -⟩ := divcalc_ok h
    exact ⟨hc, hb, hm⟩
  · rintro ⟨hc, hb, hm⟩
    cases h : divcalc w clk baud with
    | ok m f => exact ⟨m, f, rfl⟩
    | invalidBaudRate =>
      obtain h | h | h := (divcalc_fails_iff w clk baud).1 h
      · exact absurd h hb
      · exact absurd h hc
      · exact absurd hm (Nat.not_lt.2 h)

/-- The carried mantissa fits 12 bits exactly when `D` fits 16 (R95). -/
theorem mantissa_fits_iff (clk baud : Nat) :
    divisorD clk baud / 16 < 2 ^ 12 ↔ (2 * clk + baud) / (2 * baud) ≤ 65535 := by
  unfold divisorD
  omega

/-- `D` fits 16 bits exactly when `2*clk < 131071*baud` (R95). -/
theorem divisor_le_65535_iff {clk baud : Nat} (hb : baud ≠ 0) :
    (2 * clk + baud) / (2 * baud) ≤ 65535 ↔ 2 * clk < 131071 * baud := by
  rw [← Nat.lt_succ_iff, Nat.div_lt_iff_lt_mul (by omega)]
  omega

/-- Settles O15: success is the fit of the carried mantissa, and that is a bound on `D`. -/
theorem divcalcSucceedsExactly : Obligations.DivcalcSucceedsExactly := by
  intro clk baud
  have hfit : (∃ m f, divcalc 12 clk baud = .ok m f) ↔
      clk ≠ 0 ∧ baud ≠ 0 ∧ (2 * clk + baud) / (2 * baud) ≤ 65535 := by
    rw [divcalc_succeeds_iff, mantissa_fits_iff]
  refine ⟨hfit.trans ?_, hfit, fun m f h => ?_⟩
  · exact and_congr_right fun _ => and_congr_right divisor_le_65535_iff
  · obtain ⟨-, -, hm, hf, hlt, -⟩ := divcalc_ok h
    exact ⟨hm, hf, hlt⟩

/-- Settles O16: a rounding is within a half of its argument, here counted in sixteenths. -/
theorem divisorErrorBound : Obligations.DivisorErrorBound := by
  refine ⟨fun w clk baud m f h => ?_, rfl⟩
  obtain ⟨hb, -, -, -, -, hf⟩ := divcalc_ok h
  have hD : (16 * m + f : ℚ) = round ((clk : ℚ) / baud) := by
    rw [← divisorD_eq_round hb, ← divcalc_ok_sum h]
    push_cast; rfl
  have hdist : (m : ℚ) + f / 16 - clk / (16 * baud) = (round ((clk : ℚ) / baud) - clk / baud) / 16 := by
    rw [← hD]; ring
  refine ⟨?_, Nat.le_of_lt_succ hf⟩
  calc |(m : ℚ) + f / 16 - clk / (16 * baud)|
      = |(clk : ℚ) / baud - round ((clk : ℚ) / baud)| / 16 := by
        rw [hdist, abs_div, abs_sub_comm, Nat.abs_ofNat]
    _ ≤ 1 / 2 / 16 := by gcongr; exact abs_sub_round _
    _ = 1 / 32 := by norm_num

/-! ## COMPUTE -/

/-- DIVCALC on the block's operands fails under the conditions of R94 and no other. -/
theorem divide_fails_iff (s : State) :
    s.divide = .invalidBaudRate ↔
      s.opBaud.toNat = 0 ∨ s.opClk.toNat = 0 ∨ 4096 ≤ divisorD s.opClk.toNat s.opBaud.toNat / 16 :=
  divcalc_fails_iff 12 _ _

/-- DIVCALC's answer is a function of the operands alone (R90, R97). -/
theorem divide_congr {s s' : State} (hclk : s.opClk = s'.opClk) (hbaud : s.opBaud = s'.opBaud) :
    s.divide = s'.divide := by
  simp only [State.divide, State.clkOperand, State.baudOperand, hclk, hbaud]

/-- Settles O18: K1 ends in one of two ways, by DIVCALC's answer. -/
theorem computeCompletes : Obligations.ComputeCompletes := by
  rintro s D hq rfl
  refine ⟨computeStep s, execCompute_k1 hq, ?_⟩
  cases hd : s.divide with
  | ok m f =>
    obtain ⟨-, -, hm, hf, hmlt, hflt⟩ := divcalc_ok hd
    obtain ⟨hmant, hfrac⟩ := setResult_toNat s hmlt hflt
    rw [computeStep_ok hd]
    refine ⟨fun hfail => ?_, fun _ => ⟨hmant.trans hm, hfrac.trans hf, rfl⟩⟩
    rw [(divide_fails_iff s).2 hfail] at hd
    cases hd
  | invalidBaudRate =>
    rw [computeStep_fails hd]
    refine ⟨fun _ => rfl, fun ⟨hb, hc, hfit⟩ => ?_⟩
    obtain h | h | h := (divide_fails_iff s).1 hd
    · exact absurd h hb
    · exact absurd h hc
    · exact absurd hfit (Nat.not_lt.2 h)

/-- Settles O19: K1 reads the state through DIVCALC's answer, which the operands fix. -/
theorem computeDependsOnOperandsOnly : Obligations.ComputeDependsOnOperandsOnly := by
  intro s s' t t' hq hq' hclk hbaud h h'
  obtain rfl : computeStep s = t := Host.Outcome.next.inj ((execCompute_k1 hq).symm.trans h)
  obtain rfl : computeStep s' = t' := Host.Outcome.next.inj ((execCompute_k1 hq').symm.trans h')
  have hsame : s.divide = s'.divide := divide_congr hclk hbaud
  cases hd : s.divide with
  | ok m f =>
    rw [computeStep_ok hd, computeStep_ok (hsame ▸ hd)]
    exact ⟨rfl, fun _ => ⟨rfl, rfl⟩⟩
  | invalidBaudRate =>
    rw [computeStep_fails hd, computeStep_fails (hsame ▸ hd)]
    exact ⟨rfl, fun herr => absurd herr (show (1 : BitVec 3) ≠ 0 by decide)⟩

/-- Settles O20: acceptance and failure write the flags and the step register only, success the results too. -/
theorem computeFrame : Obligations.ComputeFrame := by
  intro s t h
  have hs : ComputeStep s t := execCompute_next_iff.1 h
  cases hs with
  | accept | fails => exact ⟨rfl, rfl, rfl, rfl, rfl, rfl, rfl, rfl, rfl, rfl, rfl, fun _ => ⟨rfl, rfl⟩⟩
  | ends hq =>
    refine ⟨rfl, rfl, rfl, rfl, rfl, rfl, rfl, rfl, rfl, rfl, rfl, ?_⟩
    rintro (hidle | herr)
    · rw [hq] at hidle; cases hidle
    · exact absurd rfl herr

end Sys2Proof.Machine

/-! The single steps of CONFIGURE (41_configure.md R112 to R124). -/

namespace Sys2Proof.Machine

/-- Settles O24: C1 and C2 are their rows, and the disabled window is a clause of the invariant. -/
theorem configureGateOnThenDisable : Obligations.ConfigureGateOnThenDisable := by
  intro s i wl m p f st
  refine ⟨fun hq => execConfigure_c1 hq, fun hq => execConfigure_c2 hq, fun hq hr => ?_,
    fun hinv hw ha => hinv.disabled i hw ha⟩
  exact execConfigure_write_free hr (v := .en false) (by rw [configureWrite, hq])

/-- Settles O25: each row makes the write of its operand's value. -/
theorem configureWritesTheFields : Obligations.ConfigureWritesTheFields := by
  intro s i wl m p f st
  rw [← wlVal_eq, ← modeVal_eq, ← parityVal_eq, ← flowVal_eq]
  exact ⟨fun hq => execConfigure_c3a hq, fun hq => execConfigure_c3b hq, fun hq => execConfigure_c3c hq,
    fun hq => execConfigure_c3d hq, fun hq => execConfigure_c3e hq⟩

/-- Settles O27: C4A is `clockStep` on the lookup's answer. -/
theorem configureClockStep : Obligations.ConfigureClockStep := by
  intro s i wl m p f st hq
  refine ⟨fun hc => ?_, fun hz hc => ?_⟩
  · exact execConfigure_next_iff.2 (.noClock hq hc)
  · exact execConfigure_next_iff.2 (.clock hq hc)

/-- A baud rate of at most half the clock has a divisor of at least 2 (R121, R122). -/
theorem two_le_divisorD {clk baud : Nat} (hb : baud ≠ 0) (hc : 2 * baud ≤ clk) : 2 ≤ divisorD clk baud := by
  rw [divisorD, Nat.le_div_iff_mul_le (by omega)]
  omega

/-- Settles O28: C4B fails outside the Configuration invariant or by DIVCALC, whose zero test the invariant has
passed; else it stores the two halves of `D`. -/
theorem configureDivideStep : Obligations.ConfigureDivideStep := by
  rintro s i wl m p f st D hq rfl
  refine ⟨fun hfail => ?_, fun ⟨hb, hc, hfit⟩ => ⟨two_le_divisorD hb hc, ?_⟩⟩
  · exact execConfigure_next_iff.2 <| .outOfRange hq <| hfail.imp_right <| .imp_right fun h =>
      (divide_fails_iff s).2 (.inr (.inr h))
  · have hclk : s.clkOperand ≠ 0 := by unfold State.clkOperand; omega
    obtain ⟨mant, frac, hd⟩ := (divcalc_succeeds_iff Config.mantW s.clkOperand s.baudOperand).2 ⟨hclk, hb, hfit⟩
    obtain ⟨-, -, hm, hf, hmlt, hflt⟩ := divcalc_ok hd
    obtain ⟨hmant, hfrac⟩ := setResult_toNat s hmlt hflt
    exact ⟨_, execConfigure_next_iff.2 (.divide hq hb hc hd), hmant.trans hm, hfrac.trans hf, rfl⟩

/-- The value step C4C writes (R123). -/
theorem baudregOf_eq (mant : BitVec 12) (frac : BitVec 4) :
    baudregOf mant frac = BitVec.ofNat 32 (16 * mant.toNat + frac.toNat) := by
  rw [← baudregOf_toNat, BitVec.ofNat_toNat, BitVec.setWidth_eq]

/-- Settles O29: C4C writes mantissa and fraction, C5 writes EN 1 and ends the command. -/
theorem configureBaudregThenEnable : Obligations.ConfigureBaudregThenEnable := by
  intro s i wl m p f st
  rw [← baudregOf_eq]
  refine ⟨fun hq => execConfigure_c4c hq, fun hq => execConfigure_c5 hq, fun hq hr => ?_, fun hq hr => ?_⟩
  · exact execConfigure_write_free hr (v := .baudreg _) (by rw [configureWrite, hq])
  · have h := execConfigure_c5 (i := i) (wl := wl) (m := m) (p := p) (f := f) (st := st) hq
    rwa [writeField_free hr] at h

end Sys2Proof.Machine

/-! SUPPORT. A whole CONFIGURE (41_configure.md R125, R126, R128): SEQ's steps from its acceptance, with the accesses
they make and the state they lead to; the list of accesses, and what it leaves in the state. -/

namespace Sys2Proof.Machine

section Configure

variable {i : Inst} {wl : WordLen} {m : Mode} {p : Parity} {f : FlowCtl} {st : StopBits} {s t : State}

/-! ## Runs of SEQ -/

/-- `n` steps of the CONFIGURE in progress, the accesses they make and the state after them. -/
inductive ConfigureRun (i : Inst) (wl : WordLen) (m : Mode) (p : Parity) (f : FlowCtl) (st : StopBits) :
    Nat → State → List Access → State → Prop
  | refl (s : State) : ConfigureRun i wl m p f st 0 s [] s
  | step {n : Nat} {s r t : State} {l : List Access} (hf : s.fetch = .ok (.configure i wl m p f st))
      (hq : s.seqState ≠ .idle) (hs : execConfigure i wl m p f st s = .next r)
      (h : ConfigureRun i wl m p f st n r l t) :
      ConfigureRun i wl m p f st (n + 1) s (configureAccesses i wl m p f st s ++ l) t

theorem ConfigureRun.trans {n k : Nat} {s r t : State} {l l' : List Access} (h : ConfigureRun i wl m p f st n s l r)
    (h' : ConfigureRun i wl m p f st k r l' t) : ConfigureRun i wl m p f st (n + k) s (l ++ l') t := by
  induction h with
  | refl => simpa using h'
  | step hf hq hs _ ih =>
    rw [Nat.add_right_comm, List.append_assoc]
    exact .step hf hq hs (ih h')

theorem ConfigureRun.agenda {n : Nat} {l : List Access} (h : ConfigureRun i wl m p f st n s l t) :
    t.agenda = s.agenda := by
  induction h with
  | refl => rfl
  | step _ _ hs _ ih =>
    obtain ⟨-, -, -, -, -, -, hagenda⟩ := configureStep_block (execConfigure_next_iff.1 hs)
    exact ih.trans hagenda

/-- With nobody else to move, the machine makes those steps (R26). -/
theorem runFor_of_configureRun {n : Nat} {l : List Access} (h : ConfigureRun i wl m p f st n s l t)
    (ha : s.agenda = []) : runFor n s = .next t := by
  induction h with
  | refl => rfl
  | step hf hq hs _ ih =>
    obtain ⟨-, -, -, -, -, -, hagenda⟩ := configureStep_block (execConfigure_next_iff.1 hs)
    rw [runFor_exec (i := .configure i wl m p f st) ha hq hf hs, ih (hagenda.trans ha)]

/-- SEQ in IDLE makes no access (R26). -/
theorem accessTrace_idle (hq : s.seqState = .idle) (n : Nat) : State.accessTrace n s = [] := by
  induction n with
  | zero => rfl
  | succ n ih =>
    rw [accessTrace_succ (seqTurn_idle hq), ih]
    unfold State.nextAccesses
    split <;> simp [configureAccesses, deconfigureAccesses, hq]

/-- The accesses of a run to the end of the command, and no others after it. -/
theorem accessTrace_of_configureRun {n : Nat} {l : List Access} (h : ConfigureRun i wl m p f st n s l t)
    (ht : t.seqState = .idle) (k : Nat) : State.accessTrace (n + k) s = l := by
  induction h with
  | refl => exact accessTrace_idle ht _
  | step hf hq hs _ ih =>
    rw [Nat.add_right_comm, accessTrace_succ ((seqTurn_running hq hf).trans hs), nextAccesses_configure hf, ih ht]

/-! ## The steps up to the clock query -/

/-- The accesses of steps C1 to C3E (R112 to R119). -/
def configureHead (i : Inst) (wl : WordLen) (m : Mode) (p : Parity) (f : FlowCtl) (st : StopBits) : List Access :=
  [.gate i true] ++ (fieldRMW i (.en false) ++ (fieldRMW i (wlVal wl) ++ (fieldRMW i (modeVal m) ++
    (fieldRMW i (parityVal p) ++ (fieldRMW i (flowVal f) ++ fieldRMW i (stopVal st))))))

/-- The accesses of steps C4C and C5 (R123, R124). -/
def configureTail (i : Inst) (baudreg : Word) : List Access :=
  regOverwrite i baudreg ++ fieldRMW i (.en true)

/-- A row that writes a field and goes on, then the rest of the run. -/
theorem ConfigureRun.write {n : Nat} {l' : List Access} (q : SeqState) {v : FieldVal} {q' : SeqState}
    {l : List Access} (hd : decode s.cmd = .ok (.configure i wl m p f st))
    (hw : configureWrite wl m p f st (s.goto q) = some (v, q'))
    (hl : configureAccesses i wl m p f st (s.goto q) = l)
    (h : ConfigureRun i wl m p f st n ((s.writeField i v).goto q') l' t) :
    ConfigureRun i wl m p f st (n + 1) (s.goto q) (l ++ l') t := by
  have hq : q ≠ .idle := by rintro rfl; cases hw
  subst hl
  exact .step hd hq (execConfigure_write hw) h

/-- Lists of accesses are made one after the other (R59). -/
theorem accessAll_append (s : State) (l l' : List Access) : s.accessAll (l ++ l') = (s.accessAll l).accessAll l' :=
  List.foldl_append

theorem accessAll_configureHead (s : State) :
    s.accessAll (configureHead i wl m p f st) =
      ((((((s.gateWrite i true).writeField i (.en false)).writeField i (wlVal wl)).writeField i
        (modeVal m)).writeField i (parityVal p)).writeField i (flowVal f)).writeField i (stopVal st) := by
  simp only [configureHead, accessAll_append, accessAll_gate, accessAll_fieldRMW]

theorem configureRun_head (hd : decode s.cmd = .ok (.configure i wl m p f st)) :
    ConfigureRun i wl m p f st 7 (s.goto .c1GateOn) (configureHead i wl m p f st)
      ((s.accessAll (configureHead i wl m p f st)).goto .c4aClock) := by
  rw [accessAll_configureHead, configureHead, ← List.append_nil (fieldRMW i (stopVal st))]
  refine .step (r := (s.gateWrite i true).goto .c2Disable) hd nofun (execConfigure_c1 rfl) ?_
  refine .write .c2Disable (by simpa using hd) rfl rfl ?_
  refine .write .c3aWl (by simpa using hd) rfl rfl ?_
  refine .write .c3bMode (by simpa using hd) rfl rfl ?_
  refine .write .c3cParity (by simpa using hd) rfl rfl ?_
  refine .write .c3dFlow (by simpa using hd) rfl rfl ?_
  refine .write .c3eStop (by simpa using hd) rfl rfl ?_
  exact .refl _

/-! ## From the clock query to the end -/

/-- The state with `OP_CLK` at `clk` after one query of the clock lookup (R120). -/
def State.afterClock (s : State) (clk : Word) : State := { s with opClk := clk, queries := s.queries + 1 }

/-- The lookup answers nothing. -/
theorem configureRun_noClock (hd : decode s.cmd = .ok (.configure i wl m p f st))
    (hc : s.clockAnswer (Config.bus i) = none) :
    ConfigureRun i wl m p f st 1 (s.goto .c4aClock) [.query (Config.bus i)]
      ((s.afterClock s.opClk).finish .clockUnavailable) :=
  .step hd nofun (execConfigure_next_iff.2 (.noClock (s := s.goto .c4aClock) rfl hc)) (.refl _)

/-- The lookup answers, and the operands are outside the Configuration invariant or have no divisor that fits. -/
theorem configureRun_outOfRange {hz : Word} (hd : decode s.cmd = .ok (.configure i wl m p f st))
    (hc : s.clockAnswer (Config.bus i) = some hz)
    (hfail : s.opBaud.toNat = 0 ∨ hz.toNat < 2 * s.opBaud.toNat ∨
      divcalc 12 hz.toNat s.opBaud.toNat = .invalidBaudRate) :
    ConfigureRun i wl m p f st 2 (s.goto .c4aClock) [.query (Config.bus i)]
      ((s.afterClock hz).finish .baudOutOfRange) :=
  .step hd nofun (execConfigure_next_iff.2 (.clock (s := s.goto .c4aClock) rfl hc)) <|
    .step hd nofun (execConfigure_next_iff.2 (.outOfRange rfl hfail)) (.refl _)

/-- The value C4C writes after a division is `16 * mant + frac` (R123). -/
theorem baudregOf_setResult (s : State) {mant frac : Nat} (hm : mant < 4096) (hf : frac < 16) :
    baudregOf (s.setResult mant frac).resMant (s.setResult mant frac).resFrac =
      BitVec.ofNat 32 (16 * mant + frac) := by
  obtain ⟨hmant, hfrac⟩ := setResult_toNat s hm hf
  rw [baudregOf_eq, hmant, hfrac]

/-- The lookup answers, and the divisor fits. -/
theorem configureRun_tail {hz : Word} {mant frac : Nat} (hd : decode s.cmd = .ok (.configure i wl m p f st))
    (hc : s.clockAnswer (Config.bus i) = some hz) (hb : s.opBaud.toNat ≠ 0)
    (hle : 2 * s.opBaud.toNat ≤ hz.toNat) (hok : divcalc 12 hz.toNat s.opBaud.toNat = .ok mant frac) :
    ConfigureRun i wl m p f st 4 (s.goto .c4aClock)
      (.query (Config.bus i) :: configureTail i (BitVec.ofNat 32 (16 * mant + frac)))
      ((((s.afterClock hz).setResult mant frac).accessAll
        (configureTail i (BitVec.ofNat 32 (16 * mant + frac)))).finish .none) := by
  obtain ⟨-, -, -, -, hm, hf⟩ := divcalc_ok hok
  rw [← baudregOf_setResult (s.afterClock hz) hm hf]
  refine .step hd nofun (execConfigure_next_iff.2 (.clock (s := s.goto .c4aClock) rfl hc)) ?_
  refine .step (r := ((s.afterClock hz).setResult mant frac).goto .c4cBaudreg) hd nofun
    (execConfigure_next_iff.2 (.divide rfl hb hle hok)) ?_
  refine .write (s := (s.afterClock hz).setResult mant frac) .c4cBaudreg hd rfl rfl ?_
  exact .step (l := []) hd nofun (execConfigure_c5 rfl) (.refl _)

/-! ## From the issue of the word -/

/-- The state a failed CONFIGURE of `s` ends in: its issue, the accesses up to the query, `OP_CLK` at `clk`, the
error's flags (R128). -/
def State.configureFailed (s : State) (i : Inst) (wl : WordLen) (m : Mode) (p : Parity) (f : FlowCtl)
    (st : StopBits) (clk : Word) (e : ErrCode) : State :=
  State.finish (State.afterClock ((s.issue (encode (.configure i wl m p f st))).accessAll
    (configureHead i wl m p f st)) clk) e

/-- The state a successful CONFIGURE of `s` ends in (R126). -/
def State.configureDone (s : State) (i : Inst) (wl : WordLen) (m : Mode) (p : Parity) (f : FlowCtl)
    (st : StopBits) (hz : Word) (mant frac : Nat) : State :=
  State.finish (State.accessAll (State.setResult (State.afterClock
    ((s.issue (encode (.configure i wl m p f st))).accessAll (configureHead i wl m p f st)) hz) mant frac)
    (configureTail i (BitVec.ofNat 32 (16 * mant + frac)))) .none

theorem configureHead_queries (s : State) : (s.accessAll (configureHead i wl m p f st)).queries = s.queries := by
  simp [accessAll_configureHead]

section

variable (i wl m p f st)

/-- At the query the block still holds the command, the operands and the lookup's answer of its issue. -/
theorem issue_configureHead (s : State) :
    let r := (s.issue (encode (.configure i wl m p f st))).accessAll (configureHead i wl m p f st)
    decode r.cmd = .ok (.configure i wl m p f st) ∧ r.opClk = s.opClk ∧ r.opBaud = s.opBaud ∧
      r.clockAnswer (Config.bus i) = s.clockAnswer (Config.bus i) := by
  intro r
  have hb : SameBlock (s.issue (encode (.configure i wl m p f st))) r := accessAll_sameBlock _ _
  have hqueries : r.queries = (s.issue (encode (.configure i wl m p f st))).queries := configureHead_queries _
  rw [issue_ok (decode_encode _)] at hb hqueries
  refine ⟨?_, hb.opClk, hb.opBaud, clockAnswer_congr hb.clkA hb.clkB hqueries _⟩
  rw [hb.cmd]
  exact decode_encode _

end

theorem configureRun_issue (s : State) :
    ConfigureRun i wl m p f st 7 (s.issue (encode (.configure i wl m p f st))) (configureHead i wl m p f st)
      (((s.issue (encode (.configure i wl m p f st))).accessAll (configureHead i wl m p f st)).goto .c4aClock) := by
  rw [issue_ok (decode_encode _)]
  exact configureRun_head (s := State.accept { s with cmd := encode (.configure i wl m p f st) } _) (decode_encode _)

theorem configureRun_failed_noClock (hc : s.clockAnswer (Config.bus i) = none) :
    ConfigureRun i wl m p f st 8 (s.issue (encode (.configure i wl m p f st)))
      (configureHead i wl m p f st ++ [.query (Config.bus i)])
      (s.configureFailed i wl m p f st s.opClk .clockUnavailable) := by
  obtain ⟨hd, hclk, -, hanswer⟩ := issue_configureHead i wl m p f st s
  rw [State.configureFailed, ← hclk]
  exact (configureRun_issue s).trans (configureRun_noClock hd (hanswer.trans hc))

theorem configureRun_failed_outOfRange {hz : Word} (hc : s.clockAnswer (Config.bus i) = some hz)
    (hfail : s.opBaud.toNat = 0 ∨ hz.toNat < 2 * s.opBaud.toNat ∨
      divcalc 12 hz.toNat s.opBaud.toNat = .invalidBaudRate) :
    ConfigureRun i wl m p f st 9 (s.issue (encode (.configure i wl m p f st)))
      (configureHead i wl m p f st ++ [.query (Config.bus i)])
      (s.configureFailed i wl m p f st hz .baudOutOfRange) := by
  obtain ⟨hd, -, hbaud, hanswer⟩ := issue_configureHead i wl m p f st s
  rw [← hbaud] at hfail
  exact (configureRun_issue s).trans (configureRun_outOfRange hd (hanswer.trans hc) hfail)

theorem configureRun_done {hz : Word} {mant frac : Nat} (hc : s.clockAnswer (Config.bus i) = some hz)
    (hb : s.opBaud.toNat ≠ 0) (hle : 2 * s.opBaud.toNat ≤ hz.toNat)
    (hok : divcalc 12 hz.toNat s.opBaud.toNat = .ok mant frac) :
    ConfigureRun i wl m p f st 11 (s.issue (encode (.configure i wl m p f st)))
      (configureHead i wl m p f st ++ .query (Config.bus i) :: configureTail i (BitVec.ofNat 32 (16 * mant + frac)))
      (s.configureDone i wl m p f st hz mant frac) := by
  obtain ⟨hd, -, hbaud, hanswer⟩ := issue_configureHead i wl m p f st s
  rw [← hbaud] at hb hle hok
  exact (configureRun_issue s).trans (configureRun_tail hd (hanswer.trans hc) hb hle hok)

/-- The host's write of a command's word issues it (R71). -/
theorem step_issueEvent {c : Instr} (ha : s.agenda = [issueEvent c]) (hb : s.status.busy = false)
    (hc : s.callerReady c = true) : step s = .next (State.issue { s with agenda := [] } (encode c)) := by
  rw [step_cons ha, issueEvent, State.move, hostWrite_cmd, setWidth_cmd, issue_ok (decode_encode c)]
  exact writeCmd_ok (s := { s with agenda := [] }) hb (decode_encode c) hc

/-- The host's write, the run of the command, and then waiting in IDLE (R71, R26). -/
theorem runFor_issue_configure {n : Nat} {l : List Access} (k : Nat)
    (h : ConfigureRun i wl m p f st n (State.issue { s with agenda := [] } (encode (.configure i wl m p f st))) l t)
    (ha : s.agenda = [issueEvent (.configure i wl m p f st)]) (hb : s.status.busy = false)
    (hc : s.callerReady (.configure i wl m p f st) = true) (ht : t.seqState = .idle) :
    runFor (n + 1 + k) s = .next t := by
  have hagenda : (State.issue { s with agenda := [] } (encode (.configure i wl m p f st))).agenda = [] := by
    rw [issue_ok (decode_encode _)]; rfl
  have hrun : runFor (n + 1) s = .next t := by
    rw [runFor_step (step_issueEvent ha hb hc), runFor_of_configureRun h hagenda]
  rw [runFor_add k hrun, runFor_idle k (h.agenda.trans hagenda) ht]

/-! ## What the accesses leave -/

/-- An instance with the settings of a configuration, disabled (R128). -/
def Usart.withSettings (x : Usart) (wl : WordLen) (m : Mode) (p : Parity) (f : FlowCtl) (st : StopBits) : Usart :=
  { x with
    en := false
    wl := decide (wl = .wl9)
    txen := decide (m ≠ .rxOnly)
    rxen := decide (m ≠ .txOnly)
    paren := decide (p ≠ .none)
    parsel := decide (p = .odd)
    rtsen := decide (f = .rts ∨ f = .both)
    ctsen := decide (f = .cts ∨ f = .both)
    stop := st.code }

/-- Steps C1 to C3E leave the gate on and the instance disabled with its settings (R112 to R119); a held instance
stays as it is held (R37, log entry 8). -/
theorem configureHead_eq (s : State) :
    s.accessAll (configureHead i wl m p f st) = { s with
      gate := s.gate.set i true
      u := if s.rst.get i then s.u else s.u.set i ((s.u.get i).withSettings wl m p f st) } := by
  rw [accessAll_configureHead, wlVal_eq, modeVal_eq, parityVal_eq, flowVal_eq]
  cases hr : s.rst.get i with
  | true => simp [writeField_held, hr, State.gateWrite]
  | false => simp [writeField_free, hr, State.gateWrite, stopVal, FieldVal.apply, Usart.withSettings]

/-- Steps C4C and C5 write `BAUDREG` and enable the instance (R123, R124). -/
theorem configureTail_eq (s : State) (b : Word) :
    s.accessAll (configureTail i b) = { s with
      u := if s.rst.get i then s.u else s.u.set i { s.u.get i with baudreg := b, en := true } } := by
  rw [configureTail, accessAll_append, accessAll_regOverwrite, accessAll_fieldRMW]
  cases hr : s.rst.get i with
  | true => simp [writeField_held, hr]
  | false => simp [writeField_free, hr, FieldVal.apply]

/-- The state of a failed CONFIGURE, field by field (R128). -/
theorem configureFailed_eq (s : State) (clk : Word) (e : ErrCode) :
    s.configureFailed i wl m p f st clk e = { s with
      cmd := encode (.configure i wl m p f st)
      opClk := clk
      queries := s.queries + 1
      status := Status.finished e
      seqState := .idle
      gate := s.gate.set i true
      u := if s.rst.get i then s.u else s.u.set i ((s.u.get i).withSettings wl m p f st) } := by
  rw [State.configureFailed, issue_ok (decode_encode _), configureHead_eq]
  rfl

/-- The state of a successful CONFIGURE, field by field (R126). -/
theorem configureDone_eq (s : State) (hz : Word) (mant frac : Nat) :
    s.configureDone i wl m p f st hz mant frac = { s with
      cmd := encode (.configure i wl m p f st)
      opClk := hz
      resMant := BitVec.ofNat 12 mant
      resFrac := BitVec.ofNat 4 frac
      queries := s.queries + 1
      status := Status.finished .none
      seqState := .idle
      gate := s.gate.set i true
      u := if s.rst.get i then s.u else s.u.set i { (s.u.get i).withSettings wl m p f st with
        baudreg := BitVec.ofNat 32 (16 * mant + frac), en := true } } := by
  rw [State.configureDone, issue_ok (decode_encode _), configureHead_eq, configureTail_eq]
  cases hr : s.rst.get i <;> simp [State.finish, State.setResult, State.afterClock, State.accept, hr]

/-- A second success with the same answer writes what stands there already (R127). -/
theorem configureDone_configureDone (s : State) (hz : Word) (mant frac : Nat) :
    (s.configureDone i wl m p f st hz mant frac).configureDone i wl m p f st hz mant frac =
      { s.configureDone i wl m p f st hz mant frac with
        queries := (s.configureDone i wl m p f st hz mant frac).queries + 1 } := by
  rw [configureDone_eq (s.configureDone ..), configureDone_eq s]
  cases s.rst.get i <;> simp [Usart.withSettings]

end Configure

/-! ## The statements -/

/-- Settles O31: the run of a successful CONFIGURE and the state it leaves. -/
theorem configureCommandEffect : Obligations.ConfigureCommandEffect := by
  intro s i wl m p f st hz mant frac ha hb hc hr hanswer hbaud hle hok
  have hrun := configureRun_done (s := { s with agenda := [] }) (wl := wl) (m := m) (p := p) (f := f) (st := st) hanswer
    (Nat.one_le_iff_ne_zero.1 hbaud) hle hok
  have hend := runFor_issue_configure 0 hrun ha hb hc rfl
  rw [configureDone_eq] at hend
  obtain ⟨-, -, -, -, hm, hf⟩ := divcalc_ok hok
  obtain ⟨hmant, hfrac⟩ := setResult_toNat s hm hf
  refine ⟨_, hend, PerInst.get_set_self _ _ _, ?_, rfl, rfl, hmant, hfrac, rfl, rfl, rfl, rfl, rfl, fun j hj => ?_⟩
  · simp [hr, Usart.withSettings]
  · simp [hr, hj.symm]

/-- Settles O32: the two runs of a failed CONFIGURE end in one kind of state. -/
theorem configureFailureEffect : Obligations.ConfigureFailureEffect := by
  intro s i wl m p f st ha hb hc hr n clk code hcase
  obtain ⟨e, hcode, hend⟩ : ∃ e : ErrCode, e.code = code ∧
      runFor n s = .next (State.configureFailed { s with agenda := [] } i wl m p f st clk e) := by
    obtain ⟨hanswer, rfl, rfl, rfl⟩ | ⟨hanswer, rfl, rfl, hfail⟩ := hcase
    · exact ⟨.clockUnavailable, rfl, runFor_issue_configure 0
        (configureRun_failed_noClock (s := { s with agenda := [] }) hanswer) ha hb hc rfl⟩
    · exact ⟨.baudOutOfRange, rfl, runFor_issue_configure 0
        (configureRun_failed_outOfRange (s := { s with agenda := [] }) hanswer hfail) ha hb hc rfl⟩
  subst hcode
  rw [configureFailed_eq] at hend
  refine ⟨_, hend, PerInst.get_set_self _ _ _, ?_, rfl, rfl, rfl, rfl, rfl, rfl, rfl, rfl, fun j hj => ?_⟩
  · simp [hr, Usart.withSettings]
  · simp [hr, hj.symm]

/-- Settles O33: the accesses of the runs; after its end SEQ makes none. -/
theorem configureAccessList : Obligations.ConfigureAccessList := by
  intro s i wl m p f st head hhead
  have hlist : head = configureHead i wl m p f st ++ [.query (Config.bus i)] := by
    rw [hhead, ← wlVal_eq, ← modeVal_eq, ← parityVal_eq, ← flowVal_eq]
    simp only [configureHead, fieldRMW, wlVal_name, modeVal_name, parityVal_name, flowVal_name]
    rfl
  refine ⟨fun hz mant frac hanswer hbaud hle hok => ?_, ?_⟩
  · rw [hlist, List.append_assoc]
    exact accessTrace_of_configureRun (configureRun_done hanswer (Nat.one_le_iff_ne_zero.1 hbaud) hle hok) rfl 0
  · rw [hlist]
    rintro (hanswer | ⟨hz, hanswer, hfail⟩)
    · exact accessTrace_of_configureRun (configureRun_failed_noClock hanswer) rfl 3
    · exact accessTrace_of_configureRun (configureRun_failed_outOfRange hanswer hfail) rfl 2

/-- A CONFIGURE that ends with ERR 0 had an answer of the lookup and a divisor, and ended as `configureDone` says. -/
theorem configured_of_status_none {s t : State} {i : Inst} {wl : WordLen} {m : Mode} {p : Parity} {f : FlowCtl}
    {st : StopBits} (ha : s.agenda = [issueEvent (.configure i wl m p f st)]) (hb : s.status.busy = false)
    (hc : s.callerReady (.configure i wl m p f st) = true) (ht : runFor 12 s = .next t)
    (hstatus : t.status = Status.finished .none) :
    ∃ hz mant frac, s.clockAnswer (Config.bus i) = some hz ∧ s.opBaud.toNat ≠ 0 ∧
      2 * s.opBaud.toNat ≤ hz.toNat ∧ divcalc 12 hz.toNat s.opBaud.toNat = .ok mant frac ∧
      t = State.configureDone { s with agenda := [] } i wl m p f st hz mant frac := by
  cases hanswer : s.clockAnswer (Config.bus i) with
  | none =>
    have hend := runFor_issue_configure 3
      (configureRun_failed_noClock (s := { s with agenda := [] }) hanswer) ha hb hc rfl
    cases ht.symm.trans hend
    cases hstatus
  | some hz =>
    by_cases hfail : s.opBaud.toNat = 0 ∨ hz.toNat < 2 * s.opBaud.toNat ∨
        divcalc 12 hz.toNat s.opBaud.toNat = .invalidBaudRate
    · have hend := runFor_issue_configure 2
        (configureRun_failed_outOfRange (s := { s with agenda := [] }) hanswer hfail) ha hb hc rfl
      cases ht.symm.trans hend
      cases hstatus
    · obtain ⟨hbaud, hle, hok⟩ : s.opBaud.toNat ≠ 0 ∧ ¬ hz.toNat < 2 * s.opBaud.toNat ∧
          divcalc 12 hz.toNat s.opBaud.toNat ≠ .invalidBaudRate := by simpa only [not_or] using hfail
      have hle := Nat.le_of_not_lt hle
      cases hd : divcalc 12 hz.toNat s.opBaud.toNat with
      | invalidBaudRate => exact absurd hd hok
      | ok mant frac =>
        have hend := runFor_issue_configure 0 (configureRun_done (s := { s with agenda := [] }) hanswer hbaud hle hd)
          ha hb hc rfl
        exact ⟨hz, mant, frac, rfl, hbaud, hle, hd, Host.Outcome.next.inj (ht.symm.trans hend)⟩

/-- Settles O34: the second run is `configureDone` of the first one's end, with the same divisor. -/
theorem configureTwiceIsOnce : Obligations.ConfigureTwiceIsOnce := by
  rintro s t _ i wl m p f st rfl ha hb hc ht hstatus hagain
  obtain ⟨hz, mant, frac, hanswer, hbaud, hle, hok, hdone⟩ := configured_of_status_none ha hb hc ht hstatus
  have heq := hdone.trans (configureDone_eq _ hz mant frac)
  have hagenda : t.agenda = [] := by rw [heq]
  have hopBaud : t.opBaud = s.opBaud := by rw [heq]
  have henv : t.env = s.env := by rw [heq]
  have hidle : { t with agenda := [] } = t := by rw [← hagenda]
  rw [← hopBaud] at hbaud hle hok
  have hrun := configureRun_done (s := { t with agenda := [] }) (wl := wl) (m := m) (p := p) (f := f) (st := st)
    (hagain.trans hanswer) hbaud hle hok
  have hend := runFor_issue_configure (s := { t with agenda := [issueEvent (.configure i wl m p f st)] }) 0 hrun rfl
    (by rw [hstatus]) (by simpa [State.callerReady, henv] using hc) rfl
  rw [hend, hidle, hdone, configureDone_configureDone]

end Sys2Proof.Machine

/-! SUPPORT. A command on one instance and the environment on another do not meet (41_configure.md R111, 10_state.md
R42): the state with the block and one instance of `s` and everything else of `x`. SEQ's step on that instance acts on
the one half, a move of the environment on another instance on the other half. -/

namespace Sys2Proof.Machine

/-- The state with the block and instance `i` of `s`, the other instances and the environment of `x`. -/
def State.beside (s : State) (i : Inst) (x : State) : State :=
  { s with
    u := x.u.set i (s.u.get i)
    gate := x.gate.set i (s.gate.get i)
    rst := x.rst.set i (s.rst.get i)
    env := x.env }

@[simp] theorem beside_self (s : State) (i : Inst) : s.beside i s = s := by
  simp [State.beside]

/-! ## The accesses act on the half their instance is in -/

section Accesses

variable {i j : Inst} (s x : State)

theorem beside_gateWrite_own (b : Bool) : (s.beside i x).gateWrite i b = (s.gateWrite i b).beside i x := by
  simp [State.beside, State.gateWrite]

theorem beside_resetWrite_own (b : Bool) : (s.beside i x).resetWrite i b = (s.resetWrite i b).beside i x := by
  cases b <;> simp [State.beside, State.resetWrite]

theorem beside_writeField_own (v : FieldVal) : (s.beside i x).writeField i v = (s.writeField i v).beside i x := by
  cases hr : s.rst.get i <;> simp [State.beside, State.writeField, hr]

theorem beside_gateWrite_other (hj : i ≠ j) (b : Bool) :
    (s.beside i x).gateWrite j b = s.beside i (x.gateWrite j b) := by
  simp [State.beside, State.gateWrite, PerInst.set_comm _ hj]

theorem beside_resetWrite_other (hj : i ≠ j) (b : Bool) :
    (s.beside i x).resetWrite j b = s.beside i (x.resetWrite j b) := by
  cases b <;> simp [State.beside, State.resetWrite, PerInst.set_comm _ hj]

theorem beside_writeField_other (hj : i ≠ j) (v : FieldVal) :
    (s.beside i x).writeField j v = s.beside i (x.writeField j v) := by
  cases hr : x.rst.get j <;> simp [State.beside, State.writeField, hj, hr, PerInst.set_comm _ hj]

end Accesses

/-! ## SEQ -/

theorem configureStep_beside {i : Inst} {wl : WordLen} {m : Mode} {p : Parity} {f : FlowCtl} {st : StopBits}
    {s t : State} (hs : ConfigureStep i wl m p f st s t) (x : State) :
    ConfigureStep i wl m p f st (s.beside i x) (t.beside i x) := by
  cases hs with
  | accept hq => exact .accept (s := s.beside i x) hq
  | gateOn hq =>
    have h := ConfigureStep.gateOn (i := i) (wl := wl) (m := m) (p := p) (f := f) (st := st) (s := s.beside i x) hq
    rwa [beside_gateWrite_own] at h
  | write hw =>
    have h := ConfigureStep.write (i := i) (s := s.beside i x) hw
    rwa [beside_writeField_own] at h
  | noClock hq hc => exact .noClock (s := s.beside i x) hq hc
  | clock hq hc => exact .clock (s := s.beside i x) hq hc
  | outOfRange hq hd => exact .outOfRange (s := s.beside i x) hq hd
  | divide hq hb hc hd => exact .divide (s := s.beside i x) hq hb hc hd
  | enable hq =>
    have h := ConfigureStep.enable (i := i) (wl := wl) (m := m) (p := p) (f := f) (st := st) (s := s.beside i x) hq
    rwa [beside_writeField_own] at h

theorem deconfigureStep_beside {i : Inst} {s t : State} (hs : DeconfigureStep i s t) (x : State) :
    DeconfigureStep i (s.beside i x) (t.beside i x) := by
  cases hs with
  | accept hq => exact .accept (s := s.beside i x) hq
  | resetOn hq =>
    have h := DeconfigureStep.resetOn (i := i) (s := s.beside i x) hq
    rwa [beside_resetWrite_own] at h
  | resetOff hq =>
    have h := DeconfigureStep.resetOff (i := i) (s := s.beside i x) hq
    rwa [beside_resetWrite_own] at h
  | gateOff hq =>
    have h := DeconfigureStep.gateOff (i := i) (s := s.beside i x) hq
    rwa [beside_gateWrite_own] at h

/-- A command in progress on an instance is fetched from `CMD` and names the instance. -/
theorem command_of_workingOn {s : State} {i : Inst} (h : s.workingOn = some i) :
    s.seqState ≠ .idle ∧ ∃ c, s.fetch = .ok c ∧ instrInst c = some i := by
  have hq : s.seqState ≠ .idle := fun hq => by rw [workingOn_idle hq] at h; cases h
  cases hf : s.fetch with
  | ok c => exact ⟨hq, c, rfl, workingOn_running hq hf ▸ h⟩
  | error r => simp [State.workingOn, hf] at h

/-- SEQ's step looks at the block and the instance of its command, and writes nothing else. -/
theorem seqTurn_beside {s u : State} {i : Inst} (hw : s.workingOn = some i) (h : s.seqTurn = .next u) (x : State) :
    (s.beside i x).seqTurn = .next (u.beside i x) := by
  obtain ⟨hq, c, hf, hi⟩ := command_of_workingOn hw
  rw [seqTurn_running hq hf] at h
  rw [seqTurn_running (s := s.beside i x) hq hf]
  cases c with
  | compute => cases hi
  | configure =>
    cases hi
    exact execConfigure_next_iff.2 (configureStep_beside (execConfigure_next_iff.1 h) x)
  | deconfigure =>
    cases hi
    exact execDeconfigure_next_iff.2 (deconfigureStep_beside (execDeconfigure_next_iff.1 h) x)

/-- After a step of a command on `i`, no command works on another instance. -/
theorem seqTurn_workingOn_ne {s u : State} {i j : Inst} (hw : s.workingOn = some i) (hj : i ≠ j)
    (h : s.seqTurn = .next u) : u.workingOn ≠ some j := by
  obtain ⟨-, c, hf, hi⟩ := command_of_workingOn hw
  obtain ⟨hcmd, -⟩ := seqTurn_keepsCommand h
  by_cases hq : u.seqState = .idle
  · simp [workingOn_idle hq]
  · have hf' : u.fetch = .ok c := by rw [State.fetch, hcmd]; exact hf
    rw [workingOn_running hq hf', hi]
    exact fun e => hj (Option.some.inj e)

/-! ## The environment -/

/-- The instance a move of the environment is on, if it is on one. -/
def EnvAction.inst : EnvAction → Option Inst
  | .writeField i _ => some i
  | .writeGate i _ => some i
  | .writeReset i _ => some i
  | .setClock _ _ => none
  | .setEnabled _ _ => none
  | .setPriority _ _ => none
  | .bindHandle i _ => some i
  | .destroyHandle i => some i
  | .start i _ _ => some i
  | .clear i => some i
  | .irq i _ _ => some i
  | .block i _ _ _ => some i
  | .poll i _ _ => some i

/-- An outcome with its next state changed by `g`. -/
def mapNext (g : State → State) : Outcome → Outcome
  | .next t => .next (g t)
  | .fault r => .fault r
  | .refused r => .refused r

theorem exclusive_of {s : State} {j : Inst} (hw : s.workingOn ≠ some j) (o : Outcome) : s.exclusive j o = o :=
  if_neg hw

section Elsewhere

variable {i j : Inst} {s x : State}

@[simp] theorem beside_env (s x : State) : (s.beside i x).env = x.env := rfl

theorem beside_u_get (hj : i ≠ j) (s x : State) : (s.beside i x).u.get j = x.u.get j :=
  PerInst.get_set_ne _ hj _

theorem beside_gate_get (hj : i ≠ j) (s x : State) : (s.beside i x).gate.get j = x.gate.get j :=
  PerInst.get_set_ne _ hj _

theorem bindHandle_beside (cfg : Configuration) :
    (s.beside i x).bindHandle j cfg = mapNext (s.beside i) (x.bindHandle j cfg) := by
  simp only [State.bindHandle, beside_env]
  cases x.env.handles.get j <;> rfl

theorem destroyHandle_beside : (s.beside i x).destroyHandle j = mapNext (s.beside i) (x.destroyHandle j) := by
  simp only [State.destroyHandle, beside_env]
  cases x.env.handles.get j with
  | none => rfl
  | some h => dsimp only; split <;> rfl

theorem clear_beside : (s.beside i x).clear j = mapNext (s.beside i) (x.clear j) := by
  simp only [State.clear, beside_env]
  cases x.env.handles.get j with
  | none => rfl
  | some h => dsimp only; split <;> rfl

theorem start_beside (hj : i ≠ j) (dir : Direction) (buf : List Byte) :
    (s.beside i x).start j dir buf = mapNext (s.beside i) (x.start j dir buf) := by
  simp only [State.start, beside_env, beside_u_get hj]
  cases x.env.handles.get j with
  | none => rfl
  | some h => dsimp only; split_ifs <;> rfl

theorem block_beside (hj : i ≠ j) (dir : Direction) (buf : List Byte) (bound : Option Nat) :
    (s.beside i x).block j dir buf bound = mapNext (s.beside i) (x.block j dir buf bound) := by
  simp only [State.block, beside_env, beside_u_get hj]
  split_ifs <;> rfl

theorem strayEvent_beside (flags : ErrorFlags) :
    (s.beside i x).strayEvent j flags = mapNext (s.beside i) (x.strayEvent j flags) := by
  unfold State.strayEvent
  split <;> rfl

variable (hj : i ≠ j) (hs : s.workingOn ≠ some j) (hx : x.workingOn ≠ some j)
include hj hs hx

theorem dataAccess_beside (e : Env) :
    (s.beside i x).dataAccess j (.next { s.beside i x with env := e }) =
      mapNext (s.beside i) (x.dataAccess j (.next { x with env := e })) := by
  have hb : (s.beside i x).workingOn ≠ some j := hs
  simp only [State.dataAccess, exclusive_of hb, exclusive_of hx, beside_u_get hj, beside_gate_get hj]
  split_ifs <;> rfl

theorem irq_beside (flags : ErrorFlags) (rx : Byte) :
    (s.beside i x).irq j flags rx = mapNext (s.beside i) (x.irq j flags rx) := by
  simp only [State.irq, beside_env, beside_u_get hj]
  cases x.env.handles.get j with
  | none =>
    dsimp only
    rw [strayEvent_beside]
    split <;> rfl
  | some h =>
    dsimp only
    rw [strayEvent_beside, dataAccess_beside hj hs hx]
    split_ifs <;> rfl

theorem poll_beside (ready : Bool) (rx : Byte) :
    (s.beside i x).poll j ready rx = mapNext (s.beside i) (x.poll j ready rx) := by
  simp only [State.poll, beside_env, beside_u_get hj]
  cases x.env.blocking.get j with
  | none => rfl
  | some b =>
    dsimp only
    rw [dataAccess_beside hj hs hx]
    split <;> rfl

/-- A move on another instance looks at the other half, and writes nothing else. -/
theorem envMove_beside {a : EnvAction} (ha : a.inst = some j) :
    (s.beside i x).envMove a = mapNext (s.beside i) (x.envMove a) := by
  have hb : (s.beside i x).workingOn ≠ some j := hs
  cases a <;> cases ha <;>
    simp only [State.envMove, State.envWriteField, exclusive_of hb, exclusive_of hx]
  case writeField v =>
    rw [beside_writeField_other s x hj, beside_gate_get hj]
    split <;> rfl
  case writeGate b => rw [beside_gateWrite_other s x hj]; rfl
  case writeReset b => rw [beside_resetWrite_other s x hj]; rfl
  case bindHandle cfg => exact bindHandle_beside cfg
  case destroyHandle => exact destroyHandle_beside
  case start dir buf => exact start_beside hj dir buf
  case clear => exact clear_beside
  case irq flags rx => exact irq_beside hj hs hx flags rx
  case block dir buf bound => exact block_beside hj dir buf bound
  case poll ready rx => exact poll_beside hj hs hx ready rx

end Elsewhere

/-- Settles O47: SEQ takes the one half from `s` to `u`, the move the other half from `s` to `t`, in either order. -/
theorem otherInstancesMayBeUsedMeanwhile : Obligations.OtherInstancesMayBeUsedMeanwhile := by
  intro s i j a t u _ hw hji ha ht hu
  have hj : i ≠ j := hji.symm
  have hinst : a.inst = some j := by
    rcases ha with ⟨v, rfl⟩ | ⟨b, rfl⟩ | ⟨b, rfl⟩ | ⟨d, buf, rfl⟩ | ⟨fl, rx, rfl⟩ | ⟨d, buf, n, rfl⟩ |
      ⟨r, rx, rfl⟩ | ⟨c, rfl⟩ | rfl | rfl <;> rfl
  have hs : s.workingOn ≠ some j := fun e => hj (Option.some.inj (hw.symm.trans e))
  have hmove : ∀ r : State, r.workingOn ≠ some j → (r.beside i s).envMove a = .next (r.beside i t) := by
    intro r hr
    rw [envMove_beside hj hr hs hinst, ht]
    rfl
  have hturn : ∀ x, (s.beside i x).seqTurn = .next (u.beside i x) := seqTurn_beside hw hu
  have htb : s.beside i t = t := by
    have h := hmove s hs
    rw [beside_self, ht] at h
    exact (Host.Outcome.next.inj h).symm
  have hub : u.beside i s = u := by
    have h := hturn s
    rw [beside_self, hu] at h
    exact (Host.Outcome.next.inj h).symm
  refine ⟨u.beside i t, ?_, ?_, ?_, ?_, ?_⟩
  · rw [← hturn t, htb]
  · rw [← hmove u (seqTurn_workingOn_ne hw hj hu), hub]
  · exact PerInst.get_set_self _ _ _
  · exact PerInst.get_set_self _ _ _
  · exact PerInst.get_set_self _ _ _

end Sys2Proof.Machine

/-! The single steps of DECONFIGURE, its accesses and its whole effect, and the way back from CONFIGURE
(42_deconfigure.md R141 to R145). -/

namespace Sys2Proof.Machine

/-- Settles O36: X1, X2 and X3 are their rows. -/
theorem deconfigureSteps : Obligations.DeconfigureSteps := fun _ _ =>
  ⟨execDeconfigure_x1, execDeconfigure_x2, execDeconfigure_x3⟩

section Deconfigure

variable {i : Inst} {s t : State}

/-! ## A whole DECONFIGURE -/

/-- The accesses of steps X1 to X3 (R141 to R143). -/
def deconfigureList (i : Inst) : List Access := [.reset i true, .reset i false, .gate i false]

/-- The state a DECONFIGURE of `s` ends in: its issue, its accesses, the flags of its end (R144). -/
def State.deconfigured (s : State) (i : Inst) : State :=
  State.finish ((s.issue (encode (.deconfigure i))).accessAll (deconfigureList i)) .none

/-- A step that makes one access, then the accesses of the rest. -/
theorem accessTrace_deconfigureStep {n : Nat} {a : Access} {l : List Access}
    (hd : decode s.cmd = .ok (.deconfigure i)) (hq : s.seqState ≠ .idle) (ha : deconfigureAccesses i s = [a])
    (hs : DeconfigureStep i s t) (h : State.accessTrace n t = l) : State.accessTrace (n + 1) s = a :: l := by
  rw [accessTrace_succ ((seqTurn_running hq hd).trans (execDeconfigure_next_iff.2 hs)), nextAccesses_deconfigure hd,
    ha, h, List.singleton_append]

/-- SEQ's three steps from the issue make the accesses of the list, one each (R144). -/
theorem accessTrace_deconfigure (s : State) :
    State.accessTrace 3 (s.issue (encode (.deconfigure i))) = deconfigureList i := by
  have hd : decode (encode (.deconfigure i)) = .ok (.deconfigure i) := decode_encode _
  rw [issue_ok hd]
  refine accessTrace_deconfigureStep hd nofun rfl (.resetOn rfl) ?_
  refine accessTrace_deconfigureStep hd nofun rfl (.resetOff rfl) ?_
  exact accessTrace_deconfigureStep hd nofun rfl (.gateOff rfl) rfl

/-- A step with nobody else to move, then the rest of the run. -/
theorem runFor_deconfigureStep {n : Nat} {o : Outcome} (ha : s.agenda = []) (hd : decode s.cmd = .ok (.deconfigure i))
    (hq : s.seqState ≠ .idle) (hs : DeconfigureStep i s t) (h : runFor n t = o) : runFor (n + 1) s = o :=
  (runFor_exec ha hq hd (execDeconfigure_next_iff.2 hs)).trans h

/-- With nobody else to move, SEQ's three steps from the issue end the command (R140). -/
theorem runFor_deconfigure (ha : s.agenda = []) :
    runFor 3 (s.issue (encode (.deconfigure i))) = .next (s.deconfigured i) := by
  have hd : decode (encode (.deconfigure i)) = .ok (.deconfigure i) := decode_encode _
  rw [State.deconfigured, issue_ok hd]
  refine runFor_deconfigureStep ha hd nofun (.resetOn rfl) ?_
  refine runFor_deconfigureStep ha hd nofun (.resetOff rfl) ?_
  exact runFor_deconfigureStep ha hd nofun (.gateOff rfl) rfl

/-- The host's write and the run of the command (R71, R140). -/
theorem runFor_issue_deconfigure (ha : s.agenda = [issueEvent (.deconfigure i)]) (hb : s.status.busy = false)
    (hc : s.callerReady (.deconfigure i) = true) :
    runFor 4 s = .next (State.deconfigured { s with agenda := [] } i) := by
  rw [runFor_step (step_issueEvent ha hb hc), runFor_deconfigure rfl]

/-- The state a DECONFIGURE ends in, field by field (R144). -/
theorem deconfigured_eq (s : State) :
    s.deconfigured i = { s with
      cmd := encode (.deconfigure i)
      status := Status.finished .none
      seqState := .idle
      u := s.u.set i usartReset
      gate := s.gate.set i false
      rst := s.rst.set i false } := by
  have hrst : (s.rst.set i true).set i false = s.rst.set i false := PerInst.set_set _ _ _ _
  rw [State.deconfigured, issue_ok (decode_encode _), ← hrst]
  rfl

/-- A second DECONFIGURE writes what stands there already (R145). -/
theorem deconfigured_deconfigured (s : State) : (s.deconfigured i).deconfigured i = s.deconfigured i := by
  rw [deconfigured_eq (s.deconfigured i), deconfigured_eq s]
  simp

end Deconfigure

/-- Settles O37: the three accesses, and the state they leave. -/
theorem deconfigureCommandEffect : Obligations.DeconfigureCommandEffect := by
  intro s i ha hb hc
  have hend := runFor_issue_deconfigure ha hb hc
  rw [deconfigured_eq] at hend
  refine ⟨accessTrace_deconfigure s, _, hend, PerInst.get_set_self _ _ _, PerInst.get_set_self _ _ _,
    PerInst.get_set_self _ _ _, rfl, rfl, rfl, rfl, rfl, rfl, rfl, rfl, fun j hj => ?_⟩
  exact ⟨PerInst.get_set_ne _ hj.symm _, PerInst.get_set_ne _ hj.symm _, PerInst.get_set_ne _ hj.symm _⟩

/-! ## A CONFIGURE whose steps stand on the agenda -/

section Configure

variable {i : Inst} {wl : WordLen} {m : Mode} {p : Parity} {f : FlowCtl} {st : StopBits} {s t : State}

/-- A step of CONFIGURE neither reads nor writes the moves to come. -/
theorem configureStep_setAgenda (hs : ConfigureStep i wl m p f st s t) (a : List Event) :
    ConfigureStep i wl m p f st { s with agenda := a } { t with agenda := a } := by
  cases hs with
  | accept hq => exact .accept (s := { s with agenda := a }) hq
  | gateOn hq => exact .gateOn (s := { s with agenda := a }) hq
  | write hw => exact .write (s := { s with agenda := a }) hw
  | noClock hq hc => exact .noClock (s := { s with agenda := a }) hq hc
  | clock hq hc => exact .clock (s := { s with agenda := a }) hq hc
  | outOfRange hq hd => exact .outOfRange (s := { s with agenda := a }) hq hd
  | divide hq hb hc hd => exact .divide (s := { s with agenda := a }) hq hb hc hd
  | enable hq => exact .enable (s := { s with agenda := a }) hq

/-- SEQ's turn from the agenda (R62). -/
theorem runFor_seqEvent {n : Nat} (s : State) {rest : List Event}
    (h : State.seqTurn { s with agenda := rest } = .next t) :
    runFor (n + 1) { s with agenda := .seq :: rest } = runFor n t :=
  runFor_step (s := { s with agenda := .seq :: rest }) h

/-- A run of CONFIGURE whose turns of SEQ stand on the agenda, before any other moves (R62). -/
theorem runFor_seqEvents_of_configureRun {n : Nat} {l : List Access} (h : ConfigureRun i wl m p f st n s l t)
    (rest : List Event) :
    runFor n { s with agenda := List.replicate n .seq ++ rest } = .next { t with agenda := rest } := by
  induction h with
  | refl => rfl
  | @step n s r t l hf hq hs _ ih =>
    have hturn : State.seqTurn { s with agenda := List.replicate n .seq ++ rest } =
        .next { r with agenda := List.replicate n .seq ++ rest } :=
      (seqTurn_running (s := { s with agenda := List.replicate n .seq ++ rest }) hq hf).trans
        (execConfigure_next_iff.2 (configureStep_setAgenda (execConfigure_next_iff.1 hs) _))
    exact (runFor_seqEvent s hturn).trans ih

/-- In IDLE the turns of SEQ on the agenda pass (R26). -/
theorem runFor_seqEvents_idle (hq : s.seqState = .idle) (k : Nat) (rest : List Event) :
    runFor k { s with agenda := List.replicate k .seq ++ rest } = .next { s with agenda := rest } := by
  induction k with
  | zero => rfl
  | succ k ih =>
    have hturn := seqTurn_idle (s := { s with agenda := List.replicate k .seq ++ rest }) hq
    exact (runFor_seqEvent s hturn).trans ih

/-- Successful or failed, a CONFIGURE ends within eleven steps of its issue, with the environment as before (R110,
R128). -/
theorem configureRun_ends (s : State) :
    ∃ n l t, n ≤ 11 ∧
      ConfigureRun i wl m p f st n (s.issue (encode (.configure i wl m p f st))) l t ∧
      t.seqState = .idle ∧ t.status.busy = false ∧ t.env = s.env := by
  cases hc : s.clockAnswer (Config.bus i) with
  | none =>
    refine ⟨8, _, _, by decide, configureRun_failed_noClock hc, rfl, rfl, ?_⟩
    rw [configureFailed_eq]
  | some hz =>
    by_cases hfail : s.opBaud.toNat = 0 ∨ hz.toNat < 2 * s.opBaud.toNat ∨
        divcalc 12 hz.toNat s.opBaud.toNat = .invalidBaudRate
    · refine ⟨9, _, _, by decide, configureRun_failed_outOfRange hc hfail, rfl, rfl, ?_⟩
      rw [configureFailed_eq]
    · simp only [not_or, Nat.not_lt] at hfail
      obtain ⟨hbaud, hle, hok⟩ := hfail
      cases hd : divcalc 12 hz.toNat s.opBaud.toNat with
      | invalidBaudRate => exact absurd hd hok
      | ok mant frac =>
        refine ⟨11, _, _, le_rfl, configureRun_done hc hbaud hle hd, rfl, rfl, ?_⟩
        rw [configureDone_eq]

/-- The host's write of a command's word issues it, whatever moves follow (R71). -/
theorem step_issueEvent_cons {c : Instr} {rest : List Event} (ha : s.agenda = issueEvent c :: rest)
    (hb : s.status.busy = false) (hc : s.callerReady c = true) :
    step s = .next (State.issue { s with agenda := rest } (encode c)) := by
  rw [step_cons ha, issueEvent, State.move, hostWrite_cmd, setWidth_cmd, issue_ok (decode_encode c)]
  exact writeCmd_ok (s := { s with agenda := rest }) hb (decode_encode c) hc

/-- The host's write of a CONFIGURE and eleven turns of SEQ leave the block not BUSY, the environment as before and the
moves that follow to come (R71, R110). -/
theorem runFor_issue_configure_then (rest : List Event)
    (ha : s.agenda = issueEvent (.configure i wl m p f st) :: List.replicate 11 .seq ++ rest)
    (hb : s.status.busy = false) (hc : s.callerReady (.configure i wl m p f st) = true) :
    ∃ t, runFor 12 s = .next t ∧ t.status.busy = false ∧ t.env = s.env ∧ t.agenda = rest := by
  obtain ⟨n, l, t, hn, hrun, hidle, hbusy, henv⟩ :=
    configureRun_ends (i := i) (wl := wl) (m := m) (p := p) (f := f) (st := st) s
  obtain ⟨k, hk⟩ := Nat.exists_eq_add_of_le hn
  refine ⟨{ t with agenda := rest }, ?_, hbusy, henv, rfl⟩
  have hfirst := runFor_seqEvents_of_configureRun hrun (List.replicate k .seq ++ rest)
  have hall := (runFor_add k hfirst).trans (runFor_seqEvents_idle hidle k rest)
  rw [← List.append_assoc, List.replicate_append_replicate, ← hk, issue_ok (decode_encode _)] at hall
  rw [runFor_step (step_issueEvent_cons ha hb hc), issue_ok (decode_encode _)]
  exact hall

end Configure

/-! ## The round trip -/

/-- Settles O38: (a) a second DECONFIGURE writes again what the first one left; (b) whatever way the CONFIGURE went,
DECONFIGURE's writes do not depend on it. -/
theorem deconfigureRoundTrip : Obligations.DeconfigureRoundTrip := by
  intro s i hb hc
  refine ⟨fun t ha ht => ?_, fun wl m p f st ha => ?_⟩
  · have hdone := Host.Outcome.next.inj (ht.symm.trans (runFor_issue_deconfigure ha hb hc))
    have heq := hdone.trans (deconfigured_eq _)
    have hidle : { t with agenda := [] } = t := by rw [heq]
    have hbusy : t.status.busy = false := by rw [heq]; rfl
    have hready : t.callerReady (.deconfigure i) = true := by rw [heq]; exact hc
    have hend := runFor_issue_deconfigure (s := { t with agenda := [issueEvent (.deconfigure i)] }) rfl hbusy hready
    rw [hend, hidle, hdone, deconfigured_deconfigured]
  · obtain ⟨r, hr, hbusy, henv, hagenda⟩ := runFor_issue_configure_then [issueEvent (.deconfigure i)] ha hb hc
    have hready : r.callerReady (.deconfigure i) = true := by rw [State.callerReady, henv]; exact hc
    refine ⟨State.deconfigured { r with agenda := [] } i,
      (runFor_add 4 hr).trans (runFor_issue_deconfigure hagenda hbusy hready), ?_⟩
    rw [deconfigured_eq]
    exact ⟨rfl, PerInst.get_set_self _ _ _, PerInst.get_set_self _ _ _, PerInst.get_set_self _ _ _, henv⟩

end Sys2Proof.Machine

/-! How a command ends (10_state.md R26, 60_exceptions.md R150, R151, R156, R157): with one of its own error codes and
the flags of an end, after at most eleven steps; and what a refused word leaves. -/

namespace Sys2Proof.Machine

/-- `STATUS` after a refusal (R71). -/
theorem illegalCommand_word : (Status.finished .illegalCommand).word = 0x12 := by decide

/-- Settles O5: the write is the refusal of a word that decodes to no command. -/
theorem illegalWordChangesOnlyCmdAndStatus : Obligations.IllegalWordChangesOnlyCmdAndStatus := by
  intro s t v rest ha hb hill hs
  have hd : ∀ i, decode (v.setWidth 16) ≠ .ok i := fun i hd => by simp [legal_iff_decode.2 ⟨i, hd⟩] at hill
  obtain ⟨-, hrefused⟩ := hostWriteIssuesCommand s v rest _ ha rfl hb
  cases hs.symm.trans (hrefused hd)
  exact ⟨rfl, illegalCommand_word, rfl⟩

/-! ## The codes -/

/-- The outcomes a command can end with (R151). -/
def endCodes : Instr → List ErrCode
  | .compute => [.none, .invalidBaudRate]
  | .configure .. => [.none, .clockUnavailable, .baudOutOfRange]
  | .deconfigure _ => [.none]

theorem configureWrite_not_idle {wl : WordLen} {m : Mode} {p : Parity} {f : FlowCtl} {st : StopBits} {s : State}
    {v : FieldVal} {q : SeqState} (hw : configureWrite wl m p f st s = some (v, q)) : q ≠ .idle := by
  rintro rfl
  have hcode : 0 = s.seqState.code.toNat + 1 := configureWrite_successor hw
  omega

/-- A step that ends its command is a `finish` with one of the command's codes (R72, R151). -/
theorem exec_ends {i : Instr} {s t : State} (hq : s.seqState ≠ .idle) (hs : exec i s = .next t)
    (ht : t.seqState = .idle) : ∃ e ∈ endCodes i, t.status = Status.finished e := by
  cases i with
  | compute =>
    cases execCompute_next_iff.1 hs with
    | accept hidle => exact absurd hidle hq
    | fails => exact ⟨.invalidBaudRate, by simp [endCodes], rfl⟩
    | ends => exact ⟨.none, by simp [endCodes], rfl⟩
  | configure =>
    cases execConfigure_next_iff.1 hs with
    | accept hidle => exact absurd hidle hq
    | write hw => exact absurd ht (configureWrite_not_idle hw)
    | gateOn | clock | divide => cases ht
    | noClock => exact ⟨.clockUnavailable, by simp [endCodes], rfl⟩
    | outOfRange => exact ⟨.baudOutOfRange, by simp [endCodes], rfl⟩
    | enable => exact ⟨.none, by simp [endCodes], rfl⟩
  | deconfigure =>
    cases execDeconfigure_next_iff.1 hs with
    | accept hidle => exact absurd hidle hq
    | resetOn | resetOff => cases ht
    | gateOff => exact ⟨.none, by simp [endCodes], rfl⟩

/-- Settles O40: the codes are those of `endCodes`, and no step of a command writes `CMD` or `OP_BAUD`. -/
theorem commandsEndWithTheirCodes : Obligations.CommandsEndWithTheirCodes := by
  refine ⟨fun s w r hd => ?_, fun i s t hq hs ht => ?_⟩
  · rw [issue_error hd]
    exact ⟨rfl, rfl, rfl, rfl⟩
  · obtain ⟨e, he, hst⟩ := exec_ends hq hs ht
    obtain ⟨hcmd, hbaud, hclk⟩ := exec_keepsCommand hs
    rw [hst]
    refine ⟨rfl, rfl, hcmd, hbaud, ?_, ?_, ?_⟩
    · rintro rfl
      have hc4a : s.seqState ≠ .c4aClock := fun h => by simp [exec, execCompute, h] at hs
      obtain rfl | rfl : e = .none ∨ e = .invalidBaudRate := by simpa [endCodes] using he
      · exact ⟨.inl rfl, hclk hc4a⟩
      · exact ⟨.inr rfl, hclk hc4a⟩
    · rintro k wl m p f st rfl
      obtain rfl | rfl | rfl : e = .none ∨ e = .clockUnavailable ∨ e = .baudOutOfRange := by
        simpa [endCodes] using he
      · exact .inl rfl
      · exact .inr (.inl rfl)
      · exact .inr (.inr rfl)
    · rintro k rfl
      obtain rfl : e = .none := by simpa [endCodes] using he
      rfl

/-! ## The number of steps -/

/-- In each of its rows a CONFIGURE can step (R26). -/
theorem configure_steps_in_row {i : Inst} {wl : WordLen} {m : Mode} {p : Parity} {f : FlowCtl} {st : StopBits}
    {s : State} (h : hasRow (.configure i wl m p f st) s.seqState = true) :
    ∃ t, execConfigure i wl m p f st s = .next t := by
  cases hw : configureWrite wl m p f st s with
  | some vq => exact ⟨_, execConfigure_write hw⟩
  | none =>
    cases hq : s.seqState <;> simp [hasRow, configureWrite, hq] at h hw
    case c1GateOn => exact ⟨_, execConfigure_c1 hq⟩
    case c4aClock => exact ⟨_, execConfigure_c4a hq⟩
    case c4bDivide => exact ⟨_, execConfigure_c4b hq⟩
    case c5Enable => exact ⟨_, execConfigure_c5 hq⟩

/-- In each of its rows a command can step (R26, R156). -/
theorem exec_steps_in_row {i : Instr} {s : State} (h : hasRow i s.seqState = true) : ∃ t, exec i s = .next t := by
  cases i with
  | compute =>
    cases hq : s.seqState <;> simp [hasRow, hq] at h
    exact ⟨_, execCompute_k1 hq⟩
  | configure => exact configure_steps_in_row h
  | deconfigure =>
    cases hq : s.seqState <;> simp [hasRow, hq] at h
    case x1RstAssert => exact ⟨_, execDeconfigure_x1 hq⟩
    case x2RstRelease => exact ⟨_, execDeconfigure_x2 hq⟩
    case x3GateOff => exact ⟨_, execDeconfigure_x3 hq⟩

/-- No step of a command reads or writes the moves to come. -/
theorem exec_agenda {i : Instr} {s t : State} (h : exec i s = .next t) : t.agenda = s.agenda := by
  cases i with
  | compute => cases execCompute_next_iff.1 h <;> rfl
  | configure =>
    obtain ⟨-, -, -, -, -, -, hagenda⟩ := configureStep_block (execConfigure_next_iff.1 h)
    exact hagenda
  | deconfigure =>
    obtain ⟨-, -, -, -, -, -, -, -, -, hagenda⟩ := deconfigureStep_block (execDeconfigure_next_iff.1 h)
    exact hagenda

/-- The most steps a command in this row has still to make, by the table of R26. -/
def SeqState.stepsLeft (q : SeqState) : Nat :=
  if q.code.toNat = 0 then 0
  else if q.code.toNat ≤ 11 then 12 - q.code.toNat
  else if q.code.toNat ≤ 14 then 15 - q.code.toNat
  else 1

theorem SeqState.stepsLeft_le (q : SeqState) : q.stepsLeft ≤ 11 := by cases q <;> decide

theorem seqTurn_stepsLeft {s t : State} (hq : s.seqState ≠ .idle) (h : s.seqTurn = .next t) :
    t.seqState.stepsLeft < s.seqState.stepsLeft := by
  have hrow := seqFollowsTheTable s t hq h
  simp only [List.mem_cons, Prod.mk.injEq, List.not_mem_nil, or_false] at hrow
  unfold SeqState.stepsLeft
  split_ifs <;> omega

/-- From a good state a command in progress has a next step; the state after it is good, and idle only with the flags of
an end. -/
theorem seqTurn_of_inv {s : State} (h : StateInv s) (hq : s.seqState ≠ .idle) :
    ∃ t, s.seqTurn = .next t ∧ StateInv t ∧ t.agenda = s.agenda ∧
      (t.seqState = .idle → ∃ e, t.status = Status.finished e) := by
  cases hf : s.fetch with
  | error r => simpa [State.inRow, hf] using h.in_row hq
  | ok i =>
    obtain ⟨t, hs⟩ := exec_steps_in_row (h.row_of_fetch hq hf)
    refine ⟨t, (seqTurn_running hq hf).trans hs, exec_keepsInv h hq hf hs, exec_agenda hs, fun ht => ?_⟩
    obtain ⟨e, -, he⟩ := exec_ends hq hs ht
    exact ⟨e, he⟩

/-- With nobody else moving, a command ends within the steps its row has left. -/
theorem runFor_ends {k : Nat} {s : State} (h : StateInv s) (ha : s.agenda = []) (hq : s.seqState ≠ .idle)
    (hk : s.seqState.stepsLeft ≤ k) :
    ∃ n t e, n ≤ k ∧ runFor n s = .next t ∧ t.seqState = .idle ∧ t.status = Status.finished e := by
  induction k generalizing s with
  | zero =>
    obtain ⟨t, ht, -⟩ := seqTurn_of_inv h hq
    exact absurd (seqTurn_stepsLeft hq ht) (by omega)
  | succ k ih =>
    obtain ⟨r, hr, hinv, hagenda, hend⟩ := seqTurn_of_inv h hq
    have hstep : step s = .next r := (step_nil ha).trans hr
    by_cases hidle : r.seqState = .idle
    · obtain ⟨e, he⟩ := hend hidle
      exact ⟨1, r, e, by omega, runFor_step hstep, hidle, he⟩
    · have hless := seqTurn_stepsLeft hq hr
      obtain ⟨n, t, e, hn, hrun, ht⟩ := ih hinv (hagenda.trans ha) hidle (by omega)
      exact ⟨n + 1, t, e, by omega, (runFor_step hstep).trans hrun, ht⟩

/-- Settles O44: every step of the table of R26 brings the command closer to its end, from at most eleven steps away. -/
theorem everyCommandEnds : Obligations.EveryCommandEnds := by
  intro s h ha hq
  obtain ⟨t, ht, -⟩ := seqTurn_of_inv h hq
  obtain ⟨n, r, e, hn, hrun, hidle, hst⟩ := runFor_ends h ha hq (SeqState.stepsLeft_le _)
  exact ⟨⟨t, ht⟩, n, r, hn, hrun, hidle, by rw [hst]; rfl, by rw [hst]; rfl⟩

end Sys2Proof.Machine

/-! The Interrupt Line Controller (60_exceptions.md R161 to R163), with the spec's default 96 lines and 4 priority bits
(log entry 4). -/

namespace Sys2Proof.Machine

/-- Settles O50: another line is another word or another bit of the same word. -/
theorem setEnabledWritesOneBit : Obligations.SetEnabledWritesOneBit := by
  refine fun s line b => ⟨fun hl => ⟨_, if_pos hl, rfl, fun other ho => ?_⟩, fun hl => if_neg (Nat.not_lt.2 hl)⟩
  rw [putWord_getD _ _ _ (show other / 32 < 3 by omega)]
  by_cases hword : other / 32 = line / 32
  · have hline : other % 32 = line % 32 ↔ other = line := by omega
    rw [if_pos hword, putBit_getLsbD _ _ (Nat.mod_lt _ (by decide)) (Nat.mod_lt _ (by decide))]
    simp only [hline]
  · have hline : other ≠ line := by rintro rfl; exact hword rfl
    rw [if_neg hword, if_neg hline]

theorem setPriority_in_range (s : State) {line priority : Nat} (hl : line < 96) (hp : priority < 16) :
    s.setPriority line priority = .next { s with env := { s.env with
      ipr := putWord s.env.ipr (line / 4) fun w => putByte w (line % 4) (priorityByte 4 priority) } } :=
  (if_neg (Nat.not_le.2 hl)).trans (if_neg (Nat.not_le.2 hp))

/-- Settles O51: another line is another word or another byte of the same word. -/
theorem setPriorityWritesOneByte : Obligations.SetPriorityWritesOneByte := by
  refine fun s line priority => ⟨fun hl hp => ⟨_, setPriority_in_range s hl hp, rfl, fun other ho => ?_⟩,
    fun hl => if_pos hl, fun hl hp => (if_neg (Nat.not_le.2 hl)).trans (if_pos hp)⟩
  rw [putWord_getD _ _ _ (show other / 4 < 24 by omega)]
  by_cases hword : other / 4 = line / 4
  · have hline : other % 4 = line % 4 ↔ other = line := by omega
    rw [if_pos hword, putByte_byte _ _ (Nat.mod_lt _ (by decide)) (Nat.mod_lt _ (by decide)), priorityByte_toNat hp]
    simp only [hline]
  · have hline : other ≠ line := by rintro rfl; exact hword rfl
    rw [if_neg hword, if_neg hline]

end Sys2Proof.Machine

/-! The Transfer Engine (60_exceptions.md R165 to R171): what a start, an interrupt event and a poll do where they pass;
a whole send, and a transfer that a hardware error flag aborts. -/

namespace Sys2Proof.Machine

variable {s : State} {i : Inst} {h : Handle}

/-! ## Starts -/

theorem start_inProgress (hh : s.env.handles.get i = some h) (hp : h.xfer.status.inProgress = true)
    (d : Direction) (buf : List Byte) :
    s.start i d buf = .next { s with env := { s.env with answer := some .busy } } := by
  simp [State.start, hh, hp]

/-- The environment after a start (R166). -/
def Env.started (e : Env) (i : Inst) (h : Handle) (d : Direction) (buf : List Byte) : Env :=
  { (e.putTransfer i h (Transfer.started d buf)).arm i d true with answer := none }

theorem start_free (hh : s.env.handles.get i = some h) (hp : h.xfer.status.inProgress = false)
    (ht : s.env.transferOn i = false) (hwl : (s.u.get i).wl = false) (d : Direction) (buf : List Byte) :
    s.start i d buf = .next { s with env := s.env.started i h d buf } := by
  simp [State.start, Env.started, hh, hp, ht, hwl]

/-- A start from the agenda that passes. -/
theorem step_start {d : Direction} {buf : List Byte} {rest : List Event}
    (hw : s.workingOn ≠ some i) (hh : s.env.handles.get i = some h) (hp : h.xfer.status.inProgress = false)
    (ht : s.env.transferOn i = false) (hwl : (s.u.get i).wl = false)
    (ha : s.agenda = .env (.start i d buf) :: rest) :
    step s = .next { s with agenda := rest, env := s.env.started i h d buf } :=
  (step_cons ha).trans ((exclusive_of (s := { s with agenda := rest }) hw _).trans
    (start_free (s := { s with agenda := rest }) hh hp ht hwl d buf))

/-- Settles O52: `Sending` and `Receiving` are the statuses in progress. -/
theorem startWhileSendingIsBusy : Obligations.StartWhileSendingIsBusy := by
  intro s i h d buf hh hst hw
  have hp : h.xfer.status.inProgress = true := by rcases hst with e | e <;> rw [e] <;> rfl
  exact (exclusive_of hw _).trans (start_inProgress hh hp d buf)

/-- Settles O53: the other three statuses are not in progress, so the start passes. -/
theorem startBeginsATransfer : Obligations.StartBeginsATransfer := by
  intro s i h d buf hh hst ht hwl hw
  have hp : h.xfer.status.inProgress = false := by rcases hst with e | e | e <;> rw [e] <;> rfl
  refine ⟨_, (exclusive_of hw _).trans (start_free hh hp ht hwl d buf), rfl, ?_, ?_, ?_⟩
  · cases d <;> rfl
  · rintro rfl
    exact ⟨PerInst.get_set_self _ _ _, PerInst.get_set_self _ _ _, rfl⟩
  · rintro rfl
    exact ⟨PerInst.get_set_self _ _ _, PerInst.get_set_self _ _ _, rfl⟩

/-! ## Progress of a send -/

/-- A send with bytes left writes the next one, and is Complete when that was the last (R167). -/
theorem Transfer.progress_sending {x : Transfer} {b : Byte} {rest : List Byte} (hs : x.status = .sending)
    (hd : x.buf.drop x.cursor = b :: rest) (rx : Byte) :
    x.progress rx = (⟨if rest = [] then .complete else .sending, x.buf, x.cursor + 1⟩, some b) := by
  have hlen : x.buf.length - x.cursor = rest.length + 1 := by rw [← List.length_drop, hd, List.length_cons]
  have hb : x.buf[x.cursor]? = some b := by rw [← List.head?_drop, hd, List.head?_cons]
  have hmore : x.cursor + 1 < x.buf.length ↔ rest ≠ [] := by
    rw [← List.length_pos_iff]
    omega
  have hlt : x.cursor < x.buf.length := by omega
  unfold Transfer.progress
  simp only [hs, hb, hlt, if_true, hmore, ite_not]

/-! ## Polls -/

theorem poll_of {b : Blocking} (hb : s.env.blocking.get i = some b) (hp : b.xfer.status.inProgress = true)
    (hw : s.workingOn ≠ some i) (hwl : (s.u.get i).wl = false) (hg : s.gate.get i = true) (ready : Bool)
    (rx : Byte) :
    s.poll i ready rx = .next { s with env := s.env.pollStep i b (ready && (s.u.get i).en) rx } := by
  simp [State.poll, hb, hp, dataAccess_of hw hwl hg]

/-- A successful poll of a blocking send writes a byte and advances the cursor (R169). -/
theorem Env.pollStep_sending (e : Env) (i : Inst) {b : Blocking} {byte : Byte} {rest : List Byte}
    (hs : b.xfer.status = .sending) (hd : b.xfer.buf.drop b.xfer.cursor = byte :: rest) (rx : Byte) :
    e.pollStep i b true rx = { e.write i (some byte) with
      blocking := e.blocking.set i (some { b with
        xfer := ⟨if rest = [] then .complete else .sending, b.xfer.buf, b.xfer.cursor + 1⟩ }) } := by
  simp [Env.pollStep, Transfer.progress_sending hs hd]

/-- Settles O54: with the flag set a poll is a step of progress, with the flag clear it is by the bound. -/
theorem blockingSendPolls : Obligations.BlockingSendPolls := by
  intro s i b rx byte rest hb hs hd hwl hg hw
  have hpoll := poll_of hb (by rw [hs]; rfl) hw hwl hg
  refine ⟨fun hen => ⟨_, hpoll true rx, ?_⟩, fun hn => ?_, fun n hn => ⟨_, hpoll false rx, ?_⟩,
    fun hn => ⟨_, hpoll false rx, ?_⟩⟩
  · rw [hen, Bool.and_self, Env.pollStep_sending _ _ hs hd]
    exact ⟨PerInst.get_set_self _ _ _, PerInst.get_set_self _ _ _⟩
  · have he : s.env.pollStep i b false rx = s.env := by simp [Env.pollStep, hn]
    exact (hpoll false rx).trans (by rw [Bool.false_and, he])
  · simp [Env.pollStep, hn]
  · simp [Env.pollStep, hn]

/-! ## Interrupt events -/

/-- Where the events of a transfer on instance `i` have a meaning: no command works on it, its words have 8 bits, it is
enabled and clocked (R198, R200, U15, U23). -/
structure State.ServesEvents (s : State) (i : Inst) : Prop where
  free : s.workingOn ≠ some i
  eightBits : (s.u.get i).wl = false
  enabled : (s.u.get i).en = true
  clocked : s.gate.get i = true

/-- The environment and the moves to come do not matter to it. -/
theorem State.ServesEvents.setEnv (hs : s.ServesEvents i) (e : Env) (a : List Event) :
    State.ServesEvents { s with env := e, agenda := a } i :=
  ⟨hs.free, hs.eightBits, hs.enabled, hs.clocked⟩

theorem irq_of (hs : s.ServesEvents i) (hh : s.env.handles.get i = some h) (hp : h.xfer.status.inProgress = true)
    (flags : ErrorFlags) (rx : Byte) :
    s.irq i flags rx = .next { s with env :=
      if flags.kinds = [] then s.env.irqProgress i h rx else s.env.irqError i h flags } := by
  simp [State.irq, hs.enabled, hh, hp, dataAccess_of hs.free hs.eightBits hs.clocked]

/-- The kinds are those whose flag is set (R168). -/
theorem ErrorFlags.mem_kinds {fl : ErrorFlags} {k : EventKind} :
    k ∈ fl.kinds ↔ (k = .overrunError ∧ fl.overrun = true) ∨ (k = .framingError ∧ fl.framing = true) ∨
      (k = .parityError ∧ fl.parity = true) := by
  simp [ErrorFlags.kinds, or_assoc, and_comm]

theorem ErrorFlags.kinds_ne_nil {fl : ErrorFlags}
    (hfl : fl.overrun = true ∨ fl.framing = true ∨ fl.parity = true) : fl.kinds ≠ [] := by
  rcases hfl with hf | hf | hf
  · exact List.ne_nil_of_mem (mem_kinds.2 (.inl ⟨rfl, hf⟩))
  · exact List.ne_nil_of_mem (mem_kinds.2 (.inr (.inl ⟨rfl, hf⟩)))
  · exact List.ne_nil_of_mem (mem_kinds.2 (.inr (.inr ⟨rfl, hf⟩)))

/-- An event with an error flag aborts the transfer and notifies one of the kinds whose flag is set (R168). -/
theorem irq_aborts {fl : ErrorFlags} (hs : s.ServesEvents i) (hh : s.env.handles.get i = some h)
    (hp : h.xfer.status.inProgress = true) (hfl : fl.overrun = true ∨ fl.framing = true ∨ fl.parity = true)
    (rx : Byte) :
    ∃ t, ∃ k ∈ fl.kinds, s.envMove (.irq i fl rx) = .next t ∧
      t.env.handles.get i = some { h with xfer := h.xfer.aborted s.env.picks } ∧ t.env.sent = s.env.sent ∧
      t.env.notified = s.env.notified ++ [(i, k)] := by
  have hne := ErrorFlags.kinds_ne_nil hfl
  have hpick : Config.errorPick s.env.picks % fl.kinds.length < fl.kinds.length :=
    Nat.mod_lt _ (List.length_pos_iff.2 hne)
  have hirq := irq_of hs hh hp fl rx
  rw [if_neg hne, Env.irqError, List.getD_eq_getElem _ _ hpick] at hirq
  exact ⟨_, _, List.getElem_mem hpick, hirq, PerInst.get_set_self _ _ _, rfl, rfl⟩

theorem abortedBuffer_length (n : Nat) (x : Transfer) : (abortedBuffer n x).length = x.buf.length := by
  simp only [abortedBuffer, List.length_append, List.length_take, List.length_map, List.length_range]
  omega

/-- The bytes before the cursor are untouched (R171). -/
theorem abortedBuffer_take (n : Nat) (x : Transfer) :
    (abortedBuffer n x).take x.cursor = x.buf.take x.cursor := by
  by_cases hc : x.cursor ≤ x.buf.length
  · rw [abortedBuffer, List.take_left' (List.length_take_of_le hc)]
  · simp [abortedBuffer, Nat.sub_eq_zero_of_le (Nat.le_of_not_le hc)]

/-- Settles O56: an aborted receive keeps its cursor and the bytes before it. -/
theorem errorFlagAbortsTheReceive : Obligations.ErrorFlagAbortsTheReceive := by
  intro s i h fl rx hw hh hst hwl hen hg hfl
  obtain ⟨t, k, hk, hmove, hhandle, -, hnote⟩ := irq_aborts ⟨hw, hwl, hen, hg⟩ hh (by rw [hst]; rfl) hfl rx
  have hab : h.xfer.aborted s.env.picks =
      { h.xfer with status := .error, buf := abortedBuffer s.env.picks h.xfer } := by
    rw [Transfer.aborted, hst]
  rw [hab] at hhandle
  exact ⟨t, _, k, hmove, hhandle, rfl, rfl, rfl, abortedBuffer_length _ _, abortedBuffer_take _ _, hnote,
    ErrorFlags.mem_kinds.1 hk⟩

/-- Settles O57: an aborted send keeps its cursor and its buffer. -/
theorem errorFlagAbortsTheSend : Obligations.ErrorFlagAbortsTheSend := by
  intro s i h fl rx hw hh hst hwl hen hg hfl
  obtain ⟨t, k, hk, hmove, hhandle, hsent, hnote⟩ := irq_aborts ⟨hw, hwl, hen, hg⟩ hh (by rw [hst]; rfl) hfl rx
  have hab : h.xfer.aborted s.env.picks = { h.xfer with status := .error } := by
    rw [Transfer.aborted, hst]
  rw [hab] at hhandle
  exact ⟨t, k, hmove, hhandle, hsent, hnote, ErrorFlags.mem_kinds.1 hk⟩

/-! ## A whole send -/

/-- An event of a send that leaves bytes to send: one byte written, the cursor advanced (R167). -/
theorem irqProgress_more (e : Env) (i : Inst) {b : Byte} {rest : List Byte} (hs : h.xfer.status = .sending)
    (hd : h.xfer.buf.drop h.xfer.cursor = b :: rest) (hr : rest ≠ []) (rx : Byte) :
    e.irqProgress i h rx = (e.putTransfer i h ⟨.sending, h.xfer.buf, h.xfer.cursor + 1⟩).write i (some b) := by
  simp [Env.irqProgress, Transfer.progress_sending hs hd, hr]

/-- The event of the last byte: the byte written, Complete, the notification disarmed, one Completion (R167). -/
theorem irqProgress_last (e : Env) (i : Inst) {b : Byte} (hs : h.xfer.status = .sending)
    (hd : h.xfer.buf.drop h.xfer.cursor = [b]) (rx : Byte) :
    e.irqProgress i h rx = Env.notify (Env.arm
      ((e.putTransfer i h ⟨.complete, h.xfer.buf, h.xfer.cursor + 1⟩).write i (some b)) i .send false)
      i .completion := by
  simp [Env.irqProgress, Transfer.progress_sending hs hd, hs, XferStatus.direction]

/-- The run from `s` to `t` sent the bytes and then completed the transfer of `buf` (R167, R171). -/
structure CompletesSend (s t : State) (i : Inst) (h : Handle) (buf bytes : List Byte) : Prop where
  sent : t.env.sent.get i = s.env.sent.get i ++ bytes
  notified : t.env.notified = s.env.notified ++ [(i, .completion)]
  disarmed : t.env.txArmed.get i = false
  transfer : t.env.handles.get i = some { h with xfer := ⟨.complete, buf, buf.length⟩ }
  rest : t = { s with agenda := [], env := t.env }

/-- An interrupt event with no error flag set. -/
abbrev progressEvent (i : Inst) (rx : Byte) : Event := .env (.irq i ⟨false, false, false⟩ rx)

theorem step_progressEvent {rx : Byte} {rest : List Event} (hs : s.ServesEvents i)
    (hh : s.env.handles.get i = some h) (hp : h.xfer.status.inProgress = true)
    (ha : s.agenda = progressEvent i rx :: rest) :
    step s = .next { s with agenda := rest, env := s.env.irqProgress i h rx } :=
  (step_cons ha).trans (irq_of (hs.setEnv s.env rest) hh hp ⟨false, false, false⟩ rx)

/-- One byte sent before the run. -/
theorem CompletesSend.cons {t : State} {e : Env} {a : List Event} {b : Byte} {buf bytes : List Byte}
    (h' : CompletesSend { s with agenda := a, env := e } t i h buf bytes)
    (hsent : e.sent.get i = s.env.sent.get i ++ [b]) (hnote : e.notified = s.env.notified) :
    CompletesSend s t i h buf (b :: bytes) where
  sent := by rw [h'.sent, hsent, List.append_assoc, List.singleton_append]
  notified := by rw [h'.notified, hnote]
  disarmed := h'.disarmed
  transfer := h'.transfer
  rest := h'.rest

/-- The interrupt events of a send, one for each byte from the cursor on. -/
theorem runFor_send {b : Byte} {bytes buf : List Byte} {cursor : Nat} {rx : Byte} (hs : s.ServesEvents i)
    (hh : s.env.handles.get i = some { h with xfer := ⟨.sending, buf, cursor⟩ }) (hd : buf.drop cursor = b :: bytes)
    (ha : s.agenda = progressEvent i rx :: List.replicate bytes.length (progressEvent i rx)) :
    ∃ t, runFor (bytes.length + 1) s = .next t ∧ CompletesSend s t i h buf (b :: bytes) := by
  induction bytes generalizing s b cursor with
  | nil =>
    have hstep := step_progressEvent hs hh rfl ha
    have hend : cursor + 1 = buf.length := by
      have hlen : buf.length - cursor = 1 := by rw [← List.length_drop, hd, List.length_singleton]
      omega
    rw [irqProgress_last _ _ rfl hd, hend] at hstep
    exact ⟨_, runFor_step hstep, PerInst.get_set_self _ _ _, rfl, PerInst.get_set_self _ _ _,
      PerInst.get_set_self _ _ _, rfl⟩
  | cons b' bytes ih =>
    have hstep := step_progressEvent hs hh rfl ha
    have hdrop : buf.drop (cursor + 1) = b' :: bytes := by rw [← List.tail_drop, hd, List.tail_cons]
    rw [irqProgress_more _ _ rfl hd (List.cons_ne_nil _ _)] at hstep
    have hs' := hs.setEnv ((s.env.putTransfer i h ⟨.sending, buf, cursor + 1⟩).write i (some b))
      (progressEvent i rx :: List.replicate bytes.length (progressEvent i rx))
    have hh' := PerInst.get_set_self s.env.handles i (some { h with xfer := ⟨.sending, buf, cursor + 1⟩ })
    obtain ⟨t, hrun, ht⟩ := ih hs' hh' hdrop rfl
    exact ⟨t, (runFor_step hstep).trans hrun, ht.cons (PerInst.get_set_self _ _ _) rfl⟩

/-- Settles O55: the start puts the cursor before the first byte, and the events take it to the end. -/
theorem sendWritesEveryByteInOrder : Obligations.SendWritesEveryByteInOrder := by
  intro s i h buf rx hbuf hq hh hp ht hwl hen hg ha
  obtain ⟨b, bytes, rfl⟩ := List.exists_cons_of_ne_nil hbuf
  have hw : s.workingOn ≠ some i := by rw [workingOn_idle hq]; nofun
  have hs : s.ServesEvents i := ⟨hw, hwl, hen, hg⟩
  have hstart := step_start hw hh hp ht hwl ha
  obtain ⟨t, hrun, hend⟩ := runFor_send
    (hs.setEnv (s.env.started i h .send (b :: bytes)) (List.replicate (bytes.length + 1) (progressEvent i rx)))
    (PerInst.get_set_self _ _ _) List.drop_zero rfl
  exact ⟨t, (runFor_step hstart).trans hrun, hend.sent, hend.notified, hend.disarmed, hend.transfer, hend.rest⟩

end Sys2Proof.Machine

/-! The power-on reset (70_reset_and_hazards.md R190), the moves that break the exclusivity of R198, and the events and
polls of a disabled instance (R200). -/

namespace Sys2Proof.Machine

/-! ## The power-on reset -/

/-- Settles O45: the power-on reset gives every element of R20 its value of `State.reset`. -/
theorem powerOnResets : Obligations.PowerOnResets := by
  intro s rest ha
  have hstatus : State.reset.status.word = 0 := by decide
  exact ⟨_, step_cons ha, rfl, rfl, rfl, rfl, rfl, hstatus, rfl, fun i =>
    ⟨PerInst.get_replicate usartReset i, PerInst.get_replicate false i, PerInst.get_replicate false i⟩⟩

section Exclusivity

variable {s : State} {i : Inst} {rest : List Event}

/-! ## A disabled instance -/

/-- A disabled instance raises no event (R200, log entry 25). -/
theorem irq_disabled (hen : (s.u.get i).en = false) (flags : ErrorFlags) (rx : Byte) :
    s.irq i flags rx = .next s := by
  simp [State.irq, hen]

theorem step_irq_disabled {flags : ErrorFlags} {rx : Byte} (hen : (s.u.get i).en = false)
    (ha : s.agenda = .env (.irq i flags rx) :: rest) : step s = .next { s with agenda := rest } :=
  (step_cons ha).trans (irq_disabled (s := { s with agenda := rest }) hen flags rx)

/-- A list of events of a disabled instance is used up and nothing else happens (R200). -/
theorem runFor_irq_disabled (hen : (s.u.get i).en = false) (events : List (ErrorFlags × Byte))
    (ha : s.agenda = events.map fun e => .env (.irq i e.1 e.2)) :
    runFor events.length s = .next { s with agenda := [] } := by
  induction events generalizing s with
  | nil =>
    rw [List.map_nil] at ha
    rw [List.length_nil, runFor_zero, ← ha]
  | cons e events ih =>
    rw [List.length_cons, runFor_step (step_irq_disabled hen ha)]
    exact ih hen rfl

/-- A poll of a disabled instance finds its flag clear (R200, log entry 25). -/
theorem poll_disabled (hen : (s.u.get i).en = false) (ready : Bool) (rx : Byte) :
    s.poll i ready rx = s.poll i false rx := by
  simp only [State.poll, hen, Bool.and_false]

/-- Settles O58: by induction on the list of events, each of which does nothing; a poll asks for `EN` too. -/
theorem disabledInstanceWaits : Obligations.DisabledInstanceWaits := fun _ _ hen =>
  ⟨runFor_irq_disabled hen, irq_disabled hen, poll_disabled hen true⟩

/-! ## The breach of exclusivity -/

/-- While a command works on the instance every exclusive move is a fault of the run (R198). -/
theorem exclusive_breach (hw : s.workingOn = some i) (o : Outcome) :
    s.exclusive i o = .fault (.exclusivity i) :=
  if_pos hw

/-- An event of an enabled instance that meets a transfer in progress is an access to its data register. -/
theorem irq_breach {h : Handle} (hw : s.workingOn = some i) (hen : (s.u.get i).en = true)
    (hh : s.env.handles.get i = some h) (hp : h.xfer.status.inProgress = true) (flags : ErrorFlags) (rx : Byte) :
    s.irq i flags rx = .fault (.exclusivity i) := by
  simp [State.irq, hen, hh, hp, dataAccess_breach hw]

/-- A poll of a blocking call in progress is an access to a flag of its instance. -/
theorem poll_breach {b : Blocking} (hw : s.workingOn = some i) (hb : s.env.blocking.get i = some b)
    (hp : b.xfer.status.inProgress = true) (ready : Bool) (rx : Byte) :
    s.poll i ready rx = .fault (.exclusivity i) := by
  simp [State.poll, hb, hp, dataAccess_breach hw]

/-- An event with no error flag and no transfer of a Handle in progress does nothing, enabled or not (R167). -/
theorem irq_without_transfer (hno : ∀ h, s.env.handles.get i = some h → h.xfer.status.inProgress = false)
    (rx : Byte) : s.irq i ⟨false, false, false⟩ rx = .next s := by
  have hstray : s.strayEvent i ⟨false, false, false⟩ = .next s := if_pos rfl
  cases hen : (s.u.get i).en with
  | false => exact irq_disabled hen _ rx
  | true =>
    cases hh : s.env.handles.get i with
    | none => simp [State.irq, hen, hh, hstray]
    | some h => simp [State.irq, hen, hh, hno h hh, hstray]

/-- The issue of a command on an instance with a transfer in progress breaks R111. -/
theorem writeCmd_transferActive {w : CmdWord} {c : Instr} (hb : s.status.busy = false) (hd : decode w = .ok c)
    (hc : instrInst c = some i) (ht : s.env.transferOn i = true) :
    s.writeCmd w = .fault (.transferActive i) := by
  simp [State.writeCmd, hb, hd, hc, ht]

theorem step_issueEvent_transferActive {c : Instr} (ha : s.agenda = issueEvent c :: rest)
    (hc : instrInst c = some i) (hb : s.status.busy = false) (ht : s.env.transferOn i = true) :
    step s = .fault (.transferActive i) := by
  rw [step_cons ha, issueEvent, State.move, hostWrite_cmd, setWidth_cmd]
  exact writeCmd_transferActive (s := { s with agenda := rest }) hb (decode_encode c) hc ht

end Exclusivity

/-- Settles O46: a move that accesses the instance is exclusive there, an event that meets no transfer is not. -/
theorem breakingExclusivityFaults : Obligations.BreakingExclusivityFaults := by
  refine ⟨fun s i a rest ha hw hbreak => ?_, fun s i fl rx rest ha hquiet => ?_,
    fun s c i rest ha hc hb ht => step_issueEvent_transferActive ha hc hb ht⟩
  · rw [step_cons ha]
    have hw' : State.workingOn { s with agenda := rest } = some i := hw
    rcases hbreak with ⟨v, rfl⟩ | ⟨b, rfl⟩ | ⟨b, rfl⟩ | ⟨d, buf, rfl⟩ | ⟨d, buf, n, rfl⟩ |
      ⟨fl, rx, h, rfl, hen, hh, hp⟩ | ⟨r, rx, b, rfl, hb, hp⟩
    · exact exclusive_breach hw' _
    · exact exclusive_breach hw' _
    · exact exclusive_breach hw' _
    · exact exclusive_breach hw' _
    · exact exclusive_breach hw' _
    · exact irq_breach hw' hen hh hp fl rx
    · exact poll_breach hw' hb hp r rx
  · rcases hquiet with hen | ⟨rfl, hno⟩
    · exact step_irq_disabled hen ha
    · exact (step_cons ha).trans (irq_without_transfer (s := { s with agenda := rest }) hno rx)

end Sys2Proof.Machine

/-! An access to an instance whose clock gate is off: another writer's write of a field (91_not_in_source.md N9, U15) and
the accesses of a transfer (log entry 11). -/

namespace Sys2Proof.Machine

section Unclocked

variable {s : State} {i : Inst}

/-- Where no command works on an unclocked instance a field write is not modelled (N9, U15). -/
theorem envWriteField_unclocked (hw : s.workingOn ≠ some i) (hg : s.gate.get i = false) (v : FieldVal) :
    s.envWriteField i v = .refused (.unclockedInstance i) :=
  (exclusive_of hw _).trans (if_neg (Bool.eq_false_iff.mp hg))

/-- With 8-bit words it is the gate that stops a transfer's access, whatever the access would do (log entry 11). -/
theorem dataAccess_unclocked (hw : s.workingOn ≠ some i) (hwl : (s.u.get i).wl = false)
    (hg : s.gate.get i = false) (o : Outcome) : s.dataAccess i o = .refused (.unclockedInstance i) :=
  (exclusive_of hw _).trans ((if_neg (Bool.eq_false_iff.mp hwl)).trans (if_neg (Bool.eq_false_iff.mp hg)))

/-- An event of an enabled instance that meets a transfer in progress accesses its data register. -/
theorem irq_unclocked {h : Handle} (hw : s.workingOn ≠ some i) (hwl : (s.u.get i).wl = false)
    (hg : s.gate.get i = false) (hen : (s.u.get i).en = true) (hh : s.env.handles.get i = some h)
    (hp : h.xfer.status.inProgress = true) (flags : ErrorFlags) (rx : Byte) :
    s.irq i flags rx = .refused (.unclockedInstance i) := by
  simp [State.irq, hen, hh, hp, dataAccess_unclocked hw hwl hg]

/-- A poll of a blocking call in progress accesses a flag of its instance, enabled or not. -/
theorem poll_unclocked {b : Blocking} (hw : s.workingOn ≠ some i) (hwl : (s.u.get i).wl = false)
    (hg : s.gate.get i = false) (hb : s.env.blocking.get i = some b) (hp : b.xfer.status.inProgress = true)
    (ready : Bool) (rx : Byte) : s.poll i ready rx = .refused (.unclockedInstance i) := by
  simp [State.poll, hb, hp, dataAccess_unclocked hw hwl hg]

end Unclocked

/-- Settles O49: the step is the write's, and the write finds the gate off. -/
theorem unclockedWriteIsRefused : Obligations.UnclockedWriteIsRefused := fun s _ v rest ha hw hg =>
  (step_cons ha).trans (envWriteField_unclocked (s := { s with agenda := rest }) hw hg v)

/-- Settles O59: the event and the poll each access the instance, and the access finds the gate off. -/
theorem unclockedTransferIsRefused : Obligations.UnclockedTransferIsRefused := fun _ _ hw hg hwl =>
  ⟨fun _ fl rx hen hh hp => irq_unclocked hw hwl hg hen hh hp fl rx,
    fun _ ready rx hb hp => poll_unclocked hw hwl hg hb hp ready rx⟩

/-- A state that meets the premises of O59's poll is two moves from the reset: a blocking send begun on an instance
that no CONFIGURE has clocked (log entry 23). -/
theorem poll_after_reset_is_refused :
    ∃ t, State.reset.envMove (.block 1 .send [7] none) = .next t ∧
      t.envMove (.poll 1 true 0) = .refused (.unclockedInstance 1) :=
  ⟨_, rfl, (unclockedTransferIsRefused _ 1 (by decide) (by decide) (by decide)).2 _ true 0 rfl rfl⟩

end Sys2Proof.Machine
